-- ==== Sys2Proof/Word.lean ====
section
/-! DEFINITION. The widths of the values the engine moves (spec/00_scope.md R10, spec/20_memory.md R57). -/

namespace Sys2Proof

/-- A byte: an S-box entry or a key byte, 8 bits. -/
abbrev Byte := BitVec 8

/-- A half: one side of the Feistel state, 16 bits. -/
abbrev Half := BitVec 16

/-- A word: the operand and the result of ENC and DEC, 32 bits. -/
abbrev Word := BitVec 32

/-- The contents of the key-material register, 80 bits (R20). -/
abbrev Key := BitVec 80

/-- A command word, 84 bits (R73). -/
abbrev CmdWord := BitVec 84

/-- A response word, 34 bits (R78). -/
abbrev RspWord := BitVec 34

end Sys2Proof
end

