-- ==== Sys2Proof/Syntax.lean ====
section
/-! DEFINITION. The commands of the engine as syntax: one constructor per row of spec/opcode_table.json
(spec/44_cipher_commands.md R175: the command set is complete with these three). -/

namespace Sys2Proof

/-- A legal command with its operand. -/
inductive Instr where
  /-- KEYLOAD with its 80 key bits (R75, R108). -/
  | keyload (keybits : Key)
  /-- ENC with the 32-bit plaintext (R76, R170). -/
  | enc (data : Word)
  /-- DEC with the 32-bit ciphertext (R76, R171). -/
  | dec (data : Word)
  deriving DecidableEq, Repr

end Sys2Proof
end

