-- ==== Sys2Proof/Decode.lean ====
section
/-! DEFINITION. Reading a command word and writing one (spec/30_encoding.md R73 to R77, R82). -/

namespace Sys2Proof

/-- Why a word is no command (R77): the two cases the rule names. -/
inductive IllegalWord where
  /-- OP is 0x0 or 0x4..0xF. -/
  | reservedOp (op : BitVec 4)
  /-- OP is 0x2 or 0x3 and the RSVD field is not zero. -/
  | rsvdNotZero (op : BitVec 4) (rsvd : BitVec 48)
  deriving DecidableEq, Repr

/-- OP, bits 83:80 (R73). -/
def opField (w : CmdWord) : BitVec 4 := w.extractLsb' 80 4

/-- PAYLOAD, bits 79:0 (R73); for KEYLOAD it is KEYBITS (R75). -/
def payloadField (w : CmdWord) : BitVec 80 := w.extractLsb' 0 80

/-- RSVD, bits 79:32 (R76). -/
def rsvdField (w : CmdWord) : BitVec 48 := w.extractLsb' 32 48

/-- DATA, bits 31:0 (R76). -/
def dataField (w : CmdWord) : Word := w.extractLsb' 0 32

/-- The decoder (R82), total on every 84-bit word and reading no state. -/
def decode (w : CmdWord) : Except IllegalWord Instr :=
  if opField w = 1 then .ok (.keyload (payloadField w))
  else if opField w = 2 then
    if rsvdField w = 0 then .ok (.enc (dataField w)) else .error (.rsvdNotZero 2 (rsvdField w))
  else if opField w = 3 then
    if rsvdField w = 0 then .ok (.dec (dataField w)) else .error (.rsvdNotZero 3 (rsvdField w))
  else .error (.reservedOp (opField w))

/-- The word of a command, its fields laid out as R73 to R76 say. -/
def encode : Instr → CmdWord
  | .keyload k => (1 : BitVec 4) ++ k
  | .enc d => (2 : BitVec 4) ++ (0 : BitVec 48) ++ d
  | .dec d => (3 : BitVec 4) ++ (0 : BitVec 48) ++ d

/-- The command the decoder reads from the word whose bits are `w`, numbered as spec/opcode_table.json numbers them:
the row's one 84-bit word, bit 0 its least significant. `nbits` is the row's width in whole bytes; the bits above it
are zero. A number that does not fit 84 bits is no command word (log entry 18). -/
def decodeTableWord (nbits w : Nat) : Option Instr :=
  let v := w % 2 ^ nbits
  if v < 2 ^ 84 then
    match decode (BitVec.ofNat 84 v) with
    | .ok i => some i
    | .error _ => none
  else none

end Sys2Proof
end

