-- ==== Sys2Proof/Config.lean ====
section
/-! DEFINITION. What one build of the engine fixes (spec/00_scope.md R6 to R9), and the values the spec leaves
unspecified, as constants without a body. -/

namespace Sys2Proof

/-- The values of `P_ROUND_FORM` (R8). -/
inductive RoundForm where
  /-- The document's pseudocode, the default. -/
  | doc
  /-- The round form of the published reference code. -/
  | skip32Ref
  deriving DecidableEq, Repr

/-- The direction of an operation in progress, the 1-bit register DIR (R27). -/
inductive Dir where
  /-- DIR = 0: ENC. -/
  | forward
  /-- DIR = 1: DEC. -/
  | inverse
  deriving DecidableEq, Repr, Inhabited

/-- The bit DIR holds. -/
def Dir.bit : Dir → BitVec 1
  | .forward => 0
  | .inverse => 1

/-- The completion codes of the 2-bit register RESP_STATUS (R79). -/
inductive Status where
  /-- Code 0: the command completed. -/
  | ok
  /-- Code 1: ENC or DEC while KEY_VALID = 0. -/
  | noKey
  /-- Code 2: an illegal command word. -/
  | illegalCmd
  /-- Code 3: reserved, never produced (R215). -/
  | reserved
  deriving DecidableEq, Repr, Inhabited

/-- The bits of a completion code (R79). -/
def Status.code : Status → BitVec 2
  | .ok => 0
  | .noKey => 1
  | .illegalCmd => 2
  | .reserved => 3

/-- The build parameters of one engine: the round form `P_ROUND_FORM` (R8) and the S-box contents `P_SBOX` (R7),
entry `a` at index `a`. -/
structure Config where
  roundForm : RoundForm
  sbox : Vector Byte 256
  deriving DecidableEq, Repr

/-- `P_LAT`: clock edges from the acceptance of ENC or DEC to the edge that makes its response valid (R9, R240). -/
def Config.pLat : Nat := 24

/-- The number of rounds of one operation (R6). -/
def Config.rounds : Nat := 24

/-- KEY after reset: unspecified (R22). DESIGN CHOICE, log entry 5. -/
opaque Config.resetKey : Key

/-- L after reset: unspecified (R25). DESIGN CHOICE, log entry 5. -/
opaque Config.resetLeft : Half

/-- R after reset: unspecified (R25). DESIGN CHOICE, log entry 5. -/
opaque Config.resetRight : Half

/-- ROUND after reset: unspecified (R26). DESIGN CHOICE, log entry 5. -/
opaque Config.resetRound : BitVec 5

/-- DIR after reset: unspecified (R27). DESIGN CHOICE, log entry 5. -/
opaque Config.resetDir : Dir

/-- RESP_STATUS after reset: unspecified (R29). DESIGN CHOICE, log entry 5. -/
opaque Config.resetStatus : Status

/-- RESP_DATA after reset: unspecified (R29). DESIGN CHOICE, log entry 5. -/
opaque Config.resetData : Word

end Sys2Proof
end

