-- ==== Sys2Proof/WellFormed.lean ====
section
/-! DEFINITION. The checks the spec asks for: of a command word (spec/30_encoding.md R77), of a command
(R75, R76), and of the S-box contents of a build (spec/41_substitution_table.md R120, R124). -/

namespace Sys2Proof

/-- The word is legal: OP is 0x1, or OP is 0x2 or 0x3 and bits 79:32 are zero (R77, written from its two cases and
not from the decoder). -/
def legalWord (w : CmdWord) : Bool :=
  let op := w.toNat / 2 ^ 80
  let rsvd := w.toNat / 2 ^ 32 % 2 ^ 48
  op == 1 || ((op == 2 || op == 3) && rsvd == 0)

/-- Every operand of the right width is legal: every key (R75: "Every one of the 2^80 payload values is a legal key")
and every 32-bit DATA (R170). So the type of a command is its whole check. -/
def Instr.wellFormed : Instr → Bool
  | .keyload _ => true
  | .enc _ => true
  | .dec _ => true

/-- The S-box is a permutation of 0..255: every byte value occurs among the 256 entries (R120). -/
def isPermutation (t : Vector Byte 256) : Bool :=
  (List.range 256).all fun v => t.toList.any fun b => b.toNat == v

/-- A build is legal when its S-box contents are a permutation (R7, R124). -/
def Config.legal (c : Config) : Bool := isPermutation c.sbox

end Sys2Proof
end

