-- ==== Sys2Proof/Machine/State.lean ====
section
/-! DEFINITION. The state of the engine (spec/10_state.md), the reasons a step can stop, and the state after reset. -/

namespace Sys2Proof.Machine

/-- The levels on the input ports at one rising edge of `clk` (spec/30_encoding.md R70). -/
structure Pins where
  /-- `rst`, synchronous reset (R230). -/
  rst : Bool
  /-- `cmd_valid`: the host offers a command word. -/
  cmdValid : Bool
  /-- `cmd_word` (R73). -/
  cmdWord : CmdWord
  /-- `rsp_ready`: the host takes a waiting response (R72). -/
  rspReady : Bool
  deriving DecidableEq, Repr

/-- The host does nothing at this edge: no reset, no command, no response taken (log entry 3). -/
def Pins.idle : Pins := { rst := false, cmdValid := false, cmdWord := 0, rspReady := false }

/-- The state: the tuple of R30, the build parameters, and the host's coming input levels. -/
structure State where
  /-- The build parameters. Nothing writes them (R24); log entry 1. -/
  cfg : Config
  /-- KEY, the key-material register (R20). -/
  key : Key
  /-- KEY_VALID (R23). -/
  keyValid : Bool
  /-- L, the left half (R25). -/
  left : Half
  /-- R, the right half (R25). -/
  right : Half
  /-- ROUND, the index of the next round step (R26). -/
  round : BitVec 5
  /-- DIR, the direction of the operation in progress (R27). -/
  dir : Dir
  /-- BUSY (R28). -/
  busy : Bool
  /-- RESP_VALID (R29). -/
  respValid : Bool
  /-- RESP_STATUS (R29). -/
  respStatus : Status
  /-- RESP_DATA (R29). -/
  respData : Word
  /-- The model's own field, not the spec's: the input levels at the coming edges, next edge first; log entry 2. -/
  inputs : List Pins
  deriving DecidableEq, Repr

/-- Why the machine stops with a fault. `step` never does (R200: the engine never traps or halts). -/
inductive Fault where
  /-- Raised by the model of a HOST (`readResponse` in Machine/HostDriver.lean) that is offered STATUS code 3 (R215).
  Safe: the engine never produces the code. -/
  | reservedStatus
  deriving DecidableEq, Repr

/-- Why the model has no transition. -/
inductive Refusal where
  /-- Raised by an arm of `exec` for a command without a meaning. No arm raises it. Safe. -/
  | notModelled (mnemonic : String)
  /-- Raised by a round step with ROUND in 24..31, which no run reaches (R152, spec/93_implementation_defined.md U8:
  "A model may leave them without a transition"). Safe. -/
  | roundOutOfRange
  /-- Raised by `State.configured` for S-box contents that are no permutation (R124: "refused at configuration time").
  Safe. -/
  | sboxNotPermutation
  deriving DecidableEq, Repr

/-- The state right after `reset()` of an engine built with `c` and not yet given any input: the three flags are 0
(R35, R231) and every register the spec leaves unspecified holds a constant without a body (log entry 5). -/
def State.afterReset (c : Config) : State where
  cfg := c
  key := Config.resetKey
  keyValid := false
  left := Config.resetLeft
  right := Config.resetRight
  round := Config.resetRound
  dir := Config.resetDir
  busy := false
  respValid := false
  respStatus := Config.resetStatus
  respData := Config.resetData
  inputs := []

/-- The machine right after reset, in the default build (R7, R8). -/
def State.reset : State := State.afterReset defaultConfig

/-- Building an engine: S-box contents that are no permutation are refused (R124). -/
def State.configured (c : Config) : Host.Outcome State Fault Refusal :=
  if c.legal then .next (State.afterReset c) else .refused .sboxNotPermutation

end Sys2Proof.Machine
end

