-- ==== Sys2Proof/Machine/Operands.lean ====
section
/-! DEFINITION. How values are cut up and joined (spec/20_memory.md R53 to R56), and the two internal reads, a key
byte and an S-box entry (R51, R52, R58). -/

namespace Sys2Proof.Machine

/-- The upper half of a word, bytes B0 and B1 (R54). -/
def hi16 (x : Word) : Half := x.extractLsb' 16 16

/-- The lower half of a word, bytes B2 and B3 (R54). -/
def lo16 (x : Word) : Half := x.extractLsb' 0 16

/-- `JOIN(a, b)`: the word with upper half `a` and lower half `b` (R54). -/
def join (a b : Half) : Word := a ++ b

/-- The byte sequence B0, B1, B2, B3 of a word, most significant first (R53). -/
def wordBytes (x : Word) : List Byte :=
  [x.extractLsb' 24 8, x.extractLsb' 16 8, x.extractLsb' 8 8, x.extractLsb' 0 8]

/-- `SWAP(v) = JOIN(LO16(v), HI16(v))` (R158). -/
def swapHalves (v : Word) : Word := join (lo16 v) (hi16 v)

/-- The high byte of a half (R55). -/
def hb (w : Half) : Byte := w.extractLsb' 8 8

/-- The low byte of a half (R55). -/
def lb (w : Half) : Byte := w.extractLsb' 0 8

/-- The half with high byte `h` and low byte `l` (R55, R132). -/
def joinBytes (h l : Byte) : Half := h ++ l

/-- Key byte `K[i] = KEY[79-8i : 72-8i]` (R20). The index type has the ten indices that can be formed (R58). -/
def keyByte (k : Key) (i : Fin 10) : Byte := k.extractLsb' (72 - 8 * i.val) 8

/-- The S-box read `S[a]` (R121). Every address is valid (R58). -/
def sboxRead (c : Config) (a : Byte) : Byte := c.sbox[a.toNat]'a.isLt

end Sys2Proof.Machine
end

