-- ==== Sys2Proof/Machine/Flags.lean ====
section
/-! DEFINITION. The three flags and what the output ports show (spec/10_state.md R31, R32; spec/30_encoding.md R70 to
R72, R78). The engine has no condition codes. -/

namespace Sys2Proof.Machine

/-- The levels on the input ports at the next edge. Past the end of the host's list the host is idle (log entry 3). -/
def State.pins (s : State) : Pins := s.inputs.headD Pins.idle

/-- Idle: BUSY = 0 and RESP_VALID = 0 (R214). -/
def State.idle (s : State) : Bool := !s.busy && !s.respValid

/-- `cmd_ready = (rst = 0) and (BUSY = 0) and (RESP_VALID = 0)`, from the state before the edge (R71). -/
def State.cmdReady (s : State) : Bool := !s.pins.rst && !s.busy && !s.respValid

/-- The word accepted at the next edge, if one is (R71). -/
def State.acceptedWord (s : State) : Option CmdWord :=
  if s.cmdReady && s.pins.cmdValid then some s.pins.cmdWord else none

/-- A completion code and its data: one response. -/
abbrev Response := Status × Word

/-- The response handed over at the next edge, if one is (R72). -/
def State.takenResponse (s : State) : Option Response :=
  if !s.pins.rst && s.respValid && s.pins.rspReady then some (s.respStatus, s.respData) else none

/-- `{STATUS, DATA}` as 34 bits (R78). -/
def rspWord (r : Response) : RspWord := r.1.code ++ r.2

/-- The output ports (R70). -/
structure Outputs where
  cmdReady : Bool
  rspValid : Bool
  /-- `rsp_word`; no value while `rsp_valid` = 0 (R29: "A model gives them no value then"). -/
  rspWord : Option RspWord
  keyValid : Bool
  busy : Bool
  deriving DecidableEq, Repr

/-- What the output ports show before the next edge (R32, R71, R72). -/
def State.outputs (s : State) : Outputs where
  cmdReady := s.cmdReady
  rspValid := s.respValid
  rspWord := if s.respValid then some (rspWord (s.respStatus, s.respData)) else none
  keyValid := s.keyValid
  busy := s.busy

end Sys2Proof.Machine
end

