-- ==== Sys2Proof/Machine/Ops.lean ====
section
/-! DEFINITION. The writes the rules are made of. Every write of one edge reads the state before the edge
(spec/00_scope.md R11), so each is one record update. -/

namespace Sys2Proof.Machine

/-- `respond(status, data)` (R11, R29). -/
def State.respond (s : State) (st : Status) (d : Word) : State :=
  { s with respValid := true, respStatus := st, respData := d }

/-- The engine's own errors (spec/60_exceptions.md R200). -/
inductive EngineError where
  | noKey
  | illegalCmd
  deriving DecidableEq, Repr

/-- The completion code of an error (R200). -/
def EngineError.status : EngineError → Status
  | .noKey => .noKey
  | .illegalCmd => .illegalCmd

/-- `raise <Error>`: taking an error is one response with DATA 0 and nothing else. No state is saved, no mode changes,
no control is transferred (R11, R204). -/
def State.raiseError (s : State) (e : EngineError) : State := s.respond e.status 0

/-- The response handoff, RESP_VALID <- 0 (R72). It is also the whole return from an error (R205). -/
def State.takeResponse (s : State) : State := { s with respValid := false }

/-- Writing all 80 bits of KEY and setting KEY_VALID at one edge (R59, R108). -/
def State.loadKey (s : State) (k : Key) : State := { s with key := k, keyValid := true }

/-- Two halves, (L, R). -/
structure Halves where
  left : Half
  right : Half
  deriving DecidableEq, Repr

/-- L and R as a pair. -/
def State.halves (s : State) : Halves := ⟨s.left, s.right⟩

/-- Writing L and R. -/
def State.setHalves (s : State) (h : Halves) : State := { s with left := h.left, right := h.right }

/-- Starting an operation: L, R, ROUND and DIR are loaded and BUSY is set (R170, R171). -/
def State.startOperation (s : State) (h : Halves) (r : BitVec 5) (dir : Dir) : State :=
  { s with left := h.left, right := h.right, round := r, dir := dir, busy := true }

/-- Moving ROUND to the next index (R151). -/
def State.setRound (s : State) (r : BitVec 5) : State := { s with round := r }

/-- BUSY <- 0 at the last round step (R151). -/
def State.clearBusy (s : State) : State := { s with busy := false }

/-- `reset()`: the three flags become 0 and nothing else is written (R231). -/
def State.resetFlags (s : State) : State := { s with keyValid := false, busy := false, respValid := false }

/-- The edge has happened: the host's next levels are the ones after it (log entry 2). -/
def State.afterEdge (s : State) : State := { s with inputs := s.inputs.tail }

end Sys2Proof.Machine
end

