-- ==== Sys2Proof/Machine/RoundFunction.lean ====
section
/-! DEFINITION. Key select and the G-box (spec/42_round_function.md). -/

namespace Sys2Proof.Machine

/-- `index(r, j) = (4*r + j) mod 10` (R130). -/
def keyIndex (r j : Nat) : Fin 10 := ⟨(4 * r + j) % 10, Nat.mod_lt _ (by decide)⟩

/-- The four key bytes of one round (R130). -/
structure RoundKey where
  k1 : Byte
  k2 : Byte
  k3 : Byte
  k4 : Byte
  deriving DecidableEq, Repr

/-- Key select: k(j+1) = K[index(r, j)] (R130). -/
def roundKey (k : Key) (r : Nat) : RoundKey where
  k1 := keyByte k (keyIndex r 0)
  k2 := keyByte k (keyIndex r 1)
  k3 := keyByte k (keyIndex r 2)
  k4 := keyByte k (keyIndex r 3)

/-- The four chained lookups of R132 with the key bytes given. -/
def gBoxWith (c : Config) (rk : RoundKey) (w : Half) : Half :=
  let g1 := hb w
  let g2 := lb w
  let g3 := sboxRead c (g2 ^^^ rk.k1) ^^^ g1
  let g4 := sboxRead c (g3 ^^^ rk.k2) ^^^ g2
  let g5 := sboxRead c (g4 ^^^ rk.k3) ^^^ g3
  let g6 := sboxRead c (g5 ^^^ rk.k4) ^^^ g4
  joinBytes g5 g6

/-- The G-box `G(w, r)` (R132). -/
def gBox (c : Config) (k : Key) (w : Half) (r : Nat) : Half := gBoxWith c (roundKey k r) w

end Sys2Proof.Machine
end

