-- ==== Sys2Proof/Machine/Feistel.lean ====
section
/-! DEFINITION. The Feistel engine (spec/43_feistel_engine.md): round steps, half mappings, the two transforms, and
the clock-edge round step. -/

namespace Sys2Proof.Machine

/-- `TWEAK(r)` (R140). -/
def tweak (c : Config) (r : Nat) : Half :=
  match c.roundForm with
  | .doc => 0
  | .skip32Ref => BitVec.ofNat 16 r

/-- The forward round step FR (R141). -/
def forwardRound (c : Config) (k : Key) (r : Nat) (h : Halves) : Halves :=
  let temp := gBox c k h.right r ^^^ tweak c r
  ⟨h.right, h.left ^^^ temp⟩

/-- The inverse round step IR (R142). -/
def inverseRound (c : Config) (k : Key) (r : Nat) (h : Halves) : Halves :=
  let temp := gBox c k h.left r ^^^ tweak c r
  ⟨h.right ^^^ temp, h.left⟩

/-- ENC_IN (R146). -/
def encIn (c : Config) (x : Word) : Halves :=
  match c.roundForm with
  | .doc => ⟨hi16 x, lo16 x⟩
  | .skip32Ref => ⟨lo16 x, hi16 x⟩

/-- ENC_OUT, in both round forms (R147). -/
def encOut (h : Halves) : Word := join h.left h.right

/-- DEC_IN, in both round forms (R148). -/
def decIn (y : Word) : Halves := ⟨hi16 y, lo16 y⟩

/-- DEC_OUT (R149). -/
def decOut (c : Config) (h : Halves) : Word :=
  match c.roundForm with
  | .doc => join h.left h.right
  | .skip32Ref => join h.right h.left

/-- The forward rounds of the listed indices, in the list's order. -/
def forwardRounds (c : Config) (k : Key) (rs : List Nat) (h : Halves) : Halves :=
  rs.foldl (fun h r => forwardRound c k r h) h

/-- The inverse rounds of the listed indices, in the list's order. -/
def inverseRounds (c : Config) (k : Key) (rs : List Nat) (h : Halves) : Halves :=
  rs.foldl (fun h r => inverseRound c k r h) h

/-- FEISTEL_ENC: the rounds 0 to 23 in increasing order (R144, R150). -/
def feistelEnc (c : Config) (k : Key) (x : Word) : Word :=
  encOut (forwardRounds c k (List.range Config.rounds) (encIn c x))

/-- FEISTEL_DEC: the rounds 23 down to 0 (R145, R150). -/
def feistelDec (c : Config) (k : Key) (y : Word) : Word :=
  decOut c (inverseRounds c k (List.range Config.rounds).reverse (decIn y))

/-- The halves one round step computes from the state: FR or IR by DIR (R151). -/
def State.roundHalves (s : State) : Halves :=
  match s.dir with
  | .forward => forwardRound s.cfg s.key s.round.toNat s.halves
  | .inverse => inverseRound s.cfg s.key s.round.toNat s.halves

/-- The last round of the operation: 23 forward, 0 inverse (R151). -/
def State.lastRound (s : State) : Bool :=
  match s.dir with
  | .forward => s.round == 23
  | .inverse => s.round == 0

/-- ROUND of the next round step (R151). -/
def State.nextRound (s : State) : BitVec 5 :=
  match s.dir with
  | .forward => s.round + 1
  | .inverse => s.round - 1

/-- The result formed from the halves after the last round, ENC_OUT or DEC_OUT by DIR (R151). -/
def State.resultOf (s : State) (h : Halves) : Word :=
  match s.dir with
  | .forward => encOut h
  | .inverse => decOut s.cfg h

/-- The writes of `round_step()` (R151); after the last round ROUND keeps its value. -/
def State.afterRound (s : State) : State :=
  let h := s.roundHalves
  if s.lastRound then ((s.setHalves h).clearBusy).respond .ok (s.resultOf h)
  else (s.setHalves h).setRound s.nextRound

/-- `round_step()` (R151). ROUND in 24..31 is unreachable and has no transition (R152, U8; log entry 6). -/
def roundStep (s : State) : Host.Outcome State Fault Refusal :=
  if s.round.toNat < Config.rounds then .next s.afterRound else .refused .roundOutOfRange

end Sys2Proof.Machine
end

