-- ==== Sys2Proof/Machine/Cipher.lean ====
section
/-! DEFINITION. The commands ENC and DEC (spec/44_cipher_commands.md) at their acceptance edge. The 24 round steps that
follow are `roundStep`. -/

namespace Sys2Proof.Machine

/-- The key check both commands make (R170, R171, R202): without a key, NO_KEY and nothing else. -/
def startOrNoKey (s : State) (h : Halves) (r : BitVec 5) (dir : Dir) : State :=
  if s.keyValid then s.startOperation h r dir else s.raiseError .noKey

/-- `accept(ENC(d))` (R170). -/
def execEnc (d : Word) (s : State) : Host.Outcome State Fault Refusal :=
  .next (startOrNoKey s (encIn s.cfg d) 0 .forward)

/-- `accept(DEC(d))` (R171). -/
def execDec (d : Word) (s : State) : Host.Outcome State Fault Refusal :=
  .next (startOrNoKey s (decIn d) 23 .inverse)

end Sys2Proof.Machine
end

