-- ==== Sys2Proof/Machine/KeyMaterial.lean ====
section
/-! DEFINITION. The command KEYLOAD (spec/40_key_material.md section 2). -/

namespace Sys2Proof.Machine

/-- `accept(KEYLOAD(k))` (R108): KEY <- k, KEY_VALID <- 1, respond (OK, 0). -/
def execKeyload (k : Key) (s : State) : Host.Outcome State Fault Refusal :=
  .next ((s.loadKey k).respond .ok 0)

end Sys2Proof.Machine
end

