-- ==== Sys2Proof/Machine/Dispatch.lean ====
section
/-! DEFINITION. Performing an accepted command: `accept(decode(cmd_word))` of spec/30_encoding.md R83 for the legal
words. Whether a command is accepted at all is settled by the edge rule in Machine/Sequencing.lean (R71). -/

namespace Sys2Proof.Machine

def exec (i : Instr) (s : State) : Host.Outcome State Fault Refusal :=
  match i with
  | .keyload k => Sys2Proof.Machine.execKeyload k s
  | .enc d => Sys2Proof.Machine.execEnc d s
  | .dec d => Sys2Proof.Machine.execDec d s

end Sys2Proof.Machine
end

