-- ==== Sys2Proof/Machine/Sequencing.lean ====
section
/-! DEFINITION. What the engine does at one rising edge of `clk` (spec/30_encoding.md R83). -/

namespace Sys2Proof.Machine

/-- `accept(ILLEGAL)` (spec/60_exceptions.md R201): respond (ILLEGAL_CMD, 0) and nothing else. -/
def acceptIllegal (s : State) : State := s.raiseError .illegalCmd

/-- `accept(decode(w))` (R83). -/
def accept (w : CmdWord) (s : State) : Host.Outcome State Fault Refusal :=
  match decode w with
  | .ok i => exec i s
  | .error _ => .next (acceptIllegal s)

/-- `edge(inputs)` (R83): one of reset, a round step, a response handoff, a command acceptance, or nothing. -/
def edge (p : Pins) (s : State) : Host.Outcome State Fault Refusal :=
  if p.rst then .next s.resetFlags
  else if s.busy then roundStep s
  else if s.respValid then .next (if p.rspReady then s.takeResponse else s)
  else if p.cmdValid then accept p.cmdWord s
  else .next s

/-- The levels at an edge at which the host offers `w` and does nothing else. -/
def offer (w : CmdWord) : Pins := { rst := false, cmdValid := true, cmdWord := w, rspReady := false }

/-- The engine idle and `w` offered at its next edge, so that exactly that word is accepted there (R71). The levels at
the edges after it stay as they were. -/
def State.offering (s : State) (w : CmdWord) : State :=
  { s with busy := false, respValid := false, inputs := offer w :: s.inputs.tail }

end Sys2Proof.Machine
end

