-- ==== Sys2Proof/Machine/Step.lean ====
section
/-! DEFINITION. One step of the machine: one rising edge of `clk`, at the input levels the host holds there. -/

namespace Sys2Proof.Machine

/-- One rising edge (R83). The levels the edge samples leave the host's list (log entry 2). -/
def step (s : State) : Host.Outcome State Fault Refusal := edge s.pins s.afterEdge

/-- The state in which the very next step accepts the word whose bits are `w`. A command is not fetched: the host
offers it, and the engine accepts it only while idle. So this puts the word on the input ports at the next edge and
leaves the engine idle (log entry 8). -/
def State.withFetchWord (s : State) (nbits w : Nat) : State := s.offering (BitVec.ofNat 84 (w % 2 ^ nbits))

end Sys2Proof.Machine
end

