-- ==== Sys2Proof/Machine/HostKey.lean ====
section
/-! DEFINITION. Host key preparation (spec/40_key_material.md section 1): software outside the engine, which turns
bytes or text into ten key bytes or one of three errors, and issues KEYLOAD only on success. -/

namespace Sys2Proof.Machine

/-- The three errors (R105). None is an engine response (R206). -/
inductive KeyError where
  | nullArgument
  | invalidLength
  | formatError
  deriving DecidableEq, Repr

/-- The format selector: exactly these two values (R104). -/
inductive KeyFormat where
  | hexString
  | base64
  deriving DecidableEq, Repr

/-- The ten key bytes B0..B9 of a successful preparation. -/
abbrev KeyBytes := Vector Byte 10

/-- The length check both entry points end with (R101, R104). -/
def tenBytes (bs : List Byte) : Except KeyError KeyBytes :=
  if h : bs.length = 10 then .ok ⟨bs.toArray, by simpa using h⟩ else .error .invalidLength

/-- `key_from_bytes` (R101). -/
def keyFromBytes : Option (List Byte) → Except KeyError KeyBytes
  | none => .error .nullArgument
  | some bs => tenBytes bs

/-- The value of a hexadecimal digit, either case (R102: in host key strings the spec states both; for assembler operands
see log entry 12). -/
def hexDigit (ch : Char) : Option Nat :=
  let n := ch.toNat
  if 48 ≤ n ∧ n ≤ 57 then some (n - 48)
  else if 97 ≤ n ∧ n ≤ 102 then some (n - 87)
  else if 65 ≤ n ∧ n ≤ 70 then some (n - 55)
  else none

/-- The bytes of a run of digit pairs, high nibble first, in string order (R102). -/
def hexPairs : List Char → Option (List Byte)
  | [] => some []
  | [_] => none
  | a :: b :: rest =>
    match hexDigit a, hexDigit b, hexPairs rest with
    | some x, some y, some bs => some (BitVec.ofNat 8 (16 * x + y) :: bs)
    | _, _, _ => none

/-- HexString decoding (R102): an even, non-zero length. -/
def decodeHex (cs : List Char) : Option (List Byte) := if cs.isEmpty then none else hexPairs cs

/-- The value of a character of the standard alphabet (R103). -/
def base64Digit (ch : Char) : Option Nat :=
  let n := ch.toNat
  if 65 ≤ n ∧ n ≤ 90 then some (n - 65)
  else if 97 ≤ n ∧ n ≤ 122 then some (n - 71)
  else if 48 ≤ n ∧ n ≤ 57 then some (n + 4)
  else if n = 43 then some 62
  else if n = 47 then some 63
  else none

/-- The first `n` bytes of the 24 bits of four sextets, most significant first (R103). -/
def groupBytes (n : Nat) (a b c d : Nat) : List Byte :=
  let v := BitVec.ofNat 24 (((a * 64 + b) * 64 + c) * 64 + d)
  [v.extractLsb' 16 8, v.extractLsb' 8 8, v.extractLsb' 0 8].take n

/-- Base64 decoding (R103): groups of four, `=` only at the very end, leftover bits of a padded group ignored. -/
def decodeBase64 : List Char → Option (List Byte)
  | [] => some []
  | a :: b :: c :: d :: rest =>
    if rest.isEmpty && d == '=' then
      if c == '=' then
        match base64Digit a, base64Digit b with
        | some x, some y => some (groupBytes 1 x y 0 0)
        | _, _ => none
      else
        match base64Digit a, base64Digit b, base64Digit c with
        | some x, some y, some z => some (groupBytes 2 x y z 0)
        | _, _, _ => none
    else
      match base64Digit a, base64Digit b, base64Digit c, base64Digit d, decodeBase64 rest with
      | some x, some y, some z, some w, some bs => some (groupBytes 3 x y z w ++ bs)
      | _, _, _, _, _ => none
  | _ => none

/-- Decoding by the declared format. -/
def decodeKeyText : KeyFormat → List Char → Option (List Byte)
  | .hexString => decodeHex
  | .base64 => decodeBase64

/-- `key_from_string` (R104), its tests in the order of R105: NullArgument, FormatError, InvalidLength. -/
def keyFromString (s : Option String) (format : KeyFormat) : Except KeyError KeyBytes :=
  match s.map String.toList with
  | none => .error .nullArgument
  | some [] => .error .nullArgument
  | some (ch :: cs) =>
    match decodeKeyText format (ch :: cs) with
    | none => .error .formatError
    | some bs => tenBytes bs

/-- `{B0, B1, ..., B9}` with B0 in bits 79:72 (R107). -/
def packKey (b : KeyBytes) : Key :=
  b[0] ++ b[1] ++ b[2] ++ b[3] ++ b[4] ++ b[5] ++ b[6] ++ b[7] ++ b[8] ++ b[9]

/-- The command the host issues for the outcome of a preparation: KEYLOAD after Ok, none after an error (R107). -/
def keyloadFor : Except KeyError KeyBytes → Option Instr
  | .ok b => some (.keyload (packKey b))
  | .error _ => none

end Sys2Proof.Machine
end

