-- ==== Sys2Proof/Machine/Assembler.lean ====
section
/-! DEFINITION. The assembly syntax of command streams (spec/30_encoding.md R84). Syntax has no behaviour in the engine;
the spec's test programs are written in it. -/

namespace Sys2Proof.Machine

/-- What one line of a command stream stands for. -/
inductive AsmLine where
  /-- No command: an empty line or a comment. -/
  | blank
  /-- The command word the line writes. -/
  | word (w : CmdWord)
  /-- The line follows no row of R84. -/
  | malformed
  deriving DecidableEq, Repr

/-- The number a run of hexadecimal digits writes. Taking both letter cases is a DESIGN CHOICE: R84 says only
"hexadecimal digits" (log entry 12). -/
def hexNumber (cs : List Char) : Option Nat :=
  cs.foldl (fun acc ch => match acc, hexDigit ch with
    | some n, some x => some (16 * n + x)
    | _, _ => none) (some 0)

/-- The number a run of decimal digits writes. Taking leading zeros is a DESIGN CHOICE (log entry 12). -/
def decNumber (cs : List Char) : Option Nat :=
  cs.foldl (fun acc ch => match acc with
    | some n => if 48 ≤ ch.toNat ∧ ch.toNat ≤ 57 then some (10 * n + (ch.toNat - 48)) else none
    | none => none) (some 0)

/-- A hexadecimal value with the prefix `0x` and `lo` to `hi` digits. -/
def prefixedHex (lo hi : Nat) : List Char → Option Nat
  | '0' :: 'x' :: ds => if lo ≤ ds.length ∧ ds.length ≤ hi then hexNumber ds else none
  | _ => none

/-- A signed decimal in -2147483648..2147483647, as its two's-complement pattern (R84, R10). That a leading `+` makes the
operand malformed is a DESIGN CHOICE: R84 says only "a signed decimal" (log entry 12). -/
def signedDecimal : List Char → Option Word
  | [] => none
  | '-' :: ds =>
    if ds.isEmpty then none
    else match decNumber ds with
      | some n => if n ≤ 2147483648 then some (BitVec.ofInt 32 (-(n : Int))) else none
      | none => none
  | d :: ds =>
    match decNumber (d :: ds) with
    | some n => if n ≤ 2147483647 then some (BitVec.ofNat 32 n) else none
    | none => none

/-- The operand of ENC and DEC: hexadecimal or signed decimal (R84). One to eight hexadecimal digits is a DESIGN CHOICE
(log entry 12). -/
def dataOperand (cs : List Char) : Option Word :=
  match prefixedHex 1 8 cs with
  | some n => some (BitVec.ofNat 32 n)
  | none => signedDecimal cs

/-- A space or a tab. Which characters are blanks is a DESIGN CHOICE (log entry 12). -/
def isBlank (ch : Char) : Bool := ch == ' ' || ch == '\t'

/-- The words of a line, separated by blanks. -/
def lineTokens (cs : List Char) : List (List Char) :=
  (cs.foldr (fun ch acc =>
    if isBlank ch then [] :: acc
    else match acc with
      | [] => [[ch]]
      | t :: ts => (ch :: t) :: ts) [[]]).filter fun t => !t.isEmpty

/-- The word of an operand that must be readable. -/
def asmWord : Option CmdWord → AsmLine
  | some w => .word w
  | none => .malformed

/-- One line (R84): a mnemonic and its operand, `.cmd` and a raw word, or nothing; `;` starts a comment. The `0x` of a
`.cmd` word, the capitals of the mnemonics and the outcome `malformed` of any other line are a DESIGN CHOICE (log
entry 12). -/
def assembleLine (line : String) : AsmLine :=
  match lineTokens (line.toList.takeWhile fun ch => ch != ';') with
  | [] => .blank
  | [op, arg] =>
    if op = "KEYLOAD".toList then
      asmWord ((prefixedHex 20 20 arg).map fun n => encode (.keyload (BitVec.ofNat 80 n)))
    else if op = "ENC".toList then asmWord ((dataOperand arg).map fun d => encode (.enc d))
    else if op = "DEC".toList then asmWord ((dataOperand arg).map fun d => encode (.dec d))
    else if op = ".cmd".toList then asmWord ((prefixedHex 21 21 arg).map fun n => BitVec.ofNat 84 n)
    else .malformed
  | _ => .malformed

end Sys2Proof.Machine
end

