-- ==== Sys2Proof/Machine/Instances.lean ====
section
/-! DEFINITION. Several engines side by side (spec/10_state.md R34, spec/20_memory.md R66, spec/60_exceptions.md R212):
each has its own state, and an edge of one writes only that one. -/

namespace Sys2Proof.Machine

/-- Several instances, each with a state of its own. -/
abbrev Instances := List State

/-- Every instance is of one build: its S-box holds the same `P_SBOX` (R34). -/
def Instances.ofBuild (c : Config) (es : Instances) : Prop := ∀ s ∈ es, s.cfg = c

/-- `n` instances of one build, each right after its own reset (R212). That the registers R35 leaves unspecified hold the
same values in every instance is a DESIGN CHOICE (log entry 5); the spec leaves each open. -/
def Instances.afterReset (c : Config) (n : Nat) : Instances := List.replicate n (State.afterReset c)

/-- One edge of instance `n`. An instance whose step stops keeps its state; an index with no instance does nothing. -/
def stepInstance (n : Nat) (es : Instances) : Instances :=
  match es[n]? with
  | some s =>
    match step s with
    | .next t => es.set n t
    | .fault _ => es
    | .refused _ => es
  | none => es

/-- Edges of the named instances, in the order given (their clocks are not related; log entry 14). -/
def runInstances : List Nat → Instances → Instances
  | [], es => es
  | n :: ns, es => runInstances ns (stepInstance n es)

end Sys2Proof.Machine
end

