-- ==== Sys2Proof/Machine/Reference.lean ====
section
/-! DEFINITION. The published reference function of spec/43_feistel_engine.md R156, in its own shape: two words, twelve
double rounds, a counter that runs up or down. The engine does not use it. -/

namespace Sys2Proof.Machine

/-- The reference's variables: `wl`, `wr` and the round counter `k`. -/
structure RefVars where
  wl : Half
  wr : Half
  k : Nat
  deriving DecidableEq, Repr

/-- `k = k + step` (R156): up for encryption, down for decryption. -/
def refStep (encrypt : Bool) (k : Nat) : Nat := if encrypt then k + 1 else k - 1

/-- One pass of the loop body of R156, two rounds. -/
def refDoubleRound (c : Config) (key : Key) (encrypt : Bool) (v : RefVars) : RefVars :=
  let wr := v.wr ^^^ gBox c key v.wl v.k ^^^ BitVec.ofNat 16 v.k
  let k1 := refStep encrypt v.k
  let wl := v.wl ^^^ gBox c key wr k1 ^^^ BitVec.ofNat 16 k1
  ⟨wl, wr, refStep encrypt k1⟩

/-- The loop body repeated `n` times. -/
def refLoop (c : Config) (key : Key) (encrypt : Bool) : Nat → RefVars → RefVars
  | 0, v => v
  | n + 1, v => refLoop c key encrypt n (refDoubleRound c key encrypt v)

/-- `skip32_ref(K, x, encrypt)` (R156). -/
def skip32Ref (c : Config) (key : Key) (x : Word) (encrypt : Bool) : Word :=
  let v := refLoop c key encrypt 12 ⟨hi16 x, lo16 x, if encrypt then 0 else 23⟩
  join v.wr v.wl

end Sys2Proof.Machine
end

