-- ==== Sys2Proof/Machine/Transaction.lean ====
section
/-! DEFINITION. The transaction level (spec/00_scope.md R12): one accepted command maps the key state and the command
word to a new key state and one response (spec/40_key_material.md R108, spec/44_cipher_commands.md R170 and R171,
spec/60_exceptions.md R201 to R203). It is written without the clock-edge level, which must agree with it. -/

namespace Sys2Proof.Machine

/-- The state that carries over from one command to the next: KEY and KEY_VALID (R243). -/
structure KeyState where
  key : Key
  keyValid : Bool
  deriving DecidableEq, Repr

/-- KEY and KEY_VALID of an engine. -/
def State.keyState (s : State) : KeyState := ⟨s.key, s.keyValid⟩

/-- The one response to a command word. -/
def answer (c : Config) (ks : KeyState) (w : CmdWord) : Response :=
  match decode w with
  | .ok (.keyload _) => (.ok, 0)
  | .ok (.enc d) => if ks.keyValid then (.ok, feistelEnc c ks.key d) else (.noKey, 0)
  | .ok (.dec d) => if ks.keyValid then (.ok, feistelDec c ks.key d) else (.noKey, 0)
  | .error _ => (.illegalCmd, 0)

/-- The key state after a command word: only KEYLOAD changes it (R21, R174). -/
def keyAfter (ks : KeyState) (w : CmdWord) : KeyState :=
  match decode w with
  | .ok (.keyload k) => ⟨k, true⟩
  | .ok (.enc _) => ks
  | .ok (.dec _) => ks
  | .error _ => ks

/-- The responses to a command stream, in order (R61). -/
def answers (c : Config) : KeyState → List CmdWord → List Response
  | _, [] => []
  | ks, w :: ws => answer c ks w :: answers c (keyAfter ks w) ws

/-- The key state after a command stream. -/
def keyAfterAll : KeyState → List CmdWord → KeyState
  | ks, [] => ks
  | ks, w :: ws => keyAfterAll (keyAfter ks w) ws

/-- Edges from the acceptance edge to the edge after which the response is valid (R240). -/
def latency (ks : KeyState) (w : CmdWord) : Nat :=
  match decode w with
  | .ok (.keyload _) => 0
  | .ok (.enc _) => if ks.keyValid then Config.pLat else 0
  | .ok (.dec _) => if ks.keyValid then Config.pLat else 0
  | .error _ => 0

/-- `Encrypt(v: int32)` of the host's software: ENC of the two's-complement pattern, read back as an int32 (R172). -/
def encryptInt (c : Config) (k : Key) (v : Int) : Int := (feistelEnc c k (BitVec.ofInt 32 v)).toInt

/-- `Decrypt(v: int32)` of the host's software (R172). -/
def decryptInt (c : Config) (k : Key) (v : Int) : Int := (feistelDec c k (BitVec.ofInt 32 v)).toInt

end Sys2Proof.Machine
end

