-- ==== Sys2Proof/Machine/HostDriver.lean ====
section
/-! DEFINITION. The host's side of the channels (spec/70_reset_and_hazards.md R242): reading a response, and the levels
a host holds to issue commands one after another. -/

namespace Sys2Proof.Machine

/-- What a host reads from the response channel: nothing while `rsp_valid` = 0 (R29), and a fault of the engine for
the reserved code (R215). -/
def readResponse (s : State) : Option (Except Fault Response) :=
  if s.respValid then
    match s.respStatus with
    | .ok => some (.ok (.ok, s.respData))
    | .noKey => some (.ok (.noKey, s.respData))
    | .illegalCmd => some (.ok (.illegalCmd, s.respData))
    | .reserved => some (.error .reservedStatus)
  else none

/-- The levels of a host that only takes a response. -/
def takePins : Pins := { rst := false, cmdValid := false, cmdWord := 0, rspReady := true }

/-- The fastest issue of one command (R240): offered at the first edge, taken at the first edge at which its response
is valid. -/
def issueOne (ks : KeyState) (w : CmdWord) : List Pins :=
  { rst := false, cmdValid := true, cmdWord := w, rspReady := true } :: List.replicate (latency ks w + 1) takePins

/-- The fastest issue of a command stream: each command is offered at the edge after the last response was taken. -/
def issueAll : KeyState → List CmdWord → List Pins
  | _, [] => []
  | ks, w :: ws => issueOne ks w ++ issueAll (keyAfter ks w) ws

end Sys2Proof.Machine
end

