-- ==== Sys2Proof/Safety.lean ====
section
/-! DEFINITION. Runs of several edges, the invariant of every run, and what a run shows at the ports. -/

namespace Sys2Proof.Machine

/-- `n` edges, stopping at the first fault or refusal. -/
def steps : Nat → State → Host.Outcome State Fault Refusal
  | 0, s => .next s
  | n + 1, s =>
    match step s with
    | .next t => steps n t
    | .fault f => .fault f
    | .refused r => .refused r

/-- The words accepted at the next `n` edges, in order. -/
def acceptedWords : Nat → State → List CmdWord
  | 0, _ => []
  | n + 1, s =>
    match step s with
    | .next t => s.acceptedWord.toList ++ acceptedWords n t
    | .fault _ => s.acceptedWord.toList
    | .refused _ => s.acceptedWord.toList

/-- The responses taken at the next `n` edges, in order. -/
def takenResponses : Nat → State → List Response
  | 0, _ => []
  | n + 1, s =>
    match step s with
    | .next t => s.takenResponse.toList ++ takenResponses n t
    | .fault _ => s.takenResponse.toList
    | .refused _ => s.takenResponse.toList

/-- The output ports before each of the next `n` edges and after the last. -/
def shownOutputs : Nat → State → List Outputs
  | 0, s => [s.outputs]
  | n + 1, s =>
    match step s with
    | .next t => s.outputs :: shownOutputs n t
    | .fault _ => [s.outputs]
    | .refused _ => [s.outputs]

/-- The host asserts no reset at any coming edge. -/
def State.noReset (s : State) : Bool := s.inputs.all fun p => !p.rst

/-- The flags as `reset()` leaves them (R35). -/
def State.flagsClear (s : State) : Bool := !s.keyValid && !s.busy && !s.respValid

/-- The invariant of every run after reset:
an operation runs only with a key (R170, R171), with no response waiting (R151) and with ROUND in 0..23 (R152);
a waiting response has a code the engine produces (R215), and DATA 0 with every error (R200). -/
structure State.Inv (s : State) : Prop where
  busy_has_key : s.busy = true → s.keyValid = true
  busy_no_response : s.busy = true → s.respValid = false
  busy_round : s.busy = true → s.round.toNat < Config.rounds
  response_code : s.respValid = true → s.respStatus ≠ .reserved
  error_data : s.respValid = true → s.respStatus ≠ .ok → s.respData = 0

/-- Two engines that differ at most in registers no rule lets reach an output: KEY without KEY_VALID and outside an
operation (R22), the datapath outside an operation (R25, R33), and the response fields without RESP_VALID (R29). -/
structure State.SameShown (s t : State) : Prop where
  cfg : s.cfg = t.cfg
  inputs : s.inputs = t.inputs
  keyValid : s.keyValid = t.keyValid
  busy : s.busy = t.busy
  respValid : s.respValid = t.respValid
  key : s.keyValid = true ∨ s.busy = true → s.key = t.key
  halves : s.busy = true → s.halves = t.halves
  round : s.busy = true → s.round = t.round
  dir : s.busy = true → s.dir = t.dir
  respStatus : s.respValid = true → s.respStatus = t.respStatus
  respData : s.respValid = true → s.respData = t.respData

end Sys2Proof.Machine
end

