-- ==== Sys2Proof/Certificates/Slice0/Obligations.lean ====
section
/-! DEFINITION. The statements for the provers. Each formalises what spec/ says the engine does; the rules are named in
OBLIGATIONS.json and in each docstring. -/

open Sys2Proof Sys2Proof.Machine

/-- The five worked encodings of 30_encoding.md R84 (one KEYLOAD, two ENC, one DEC, one illegal word with RSVD bit 32
set) and the all-zero word decode as the spec says. (30_encoding.md section 5 (worked encodings), 30_encoding.md
R74, 95_test_vectors.md V-DEC) -/
def Obligations.SpecCommandWordsDecode : Prop :=
  decode 0x11234567890abcdef0123 = .ok (.keyload 0x1234567890abcdef0123) ∧
  decode 0x200000000000000000000 = .ok (.enc 0x00000000) ∧
  decode 0x2000000000000ffffffff = .ok (.enc 0xffffffff) ∧
  decode 0x300000000000005931d86 = .ok (.dec 0x05931d86) ∧
  (∃ e, decode 0x200000000000100000000 = .error e) ∧
  (∃ e, decode 0x000000000000000000000 = .error e)

/-- For every command, with every key and every 32-bit operand, decode of its encoding is the command itself.
(30_encoding.md sections 2 and 4) -/
def Obligations.DecodeOfEncodeGivesTheCommand : Prop :=
  ∀ i : Instr, decode (encode i) = .ok i

/-- For every 84-bit word, if it decodes to a command then encoding that command gives the word back. (30_encoding.md
sections 2 and 4) -/
def Obligations.EncodeOfDecodedWordGivesTheWord : Prop :=
  ∀ (w : CmdWord) (i : Instr), decode w = .ok i → encode i = w

/-- Every 84-bit word decodes by its fields: OP 1 gives KEYLOAD of bits 79:0; OP 2 with bits 79:32 zero gives ENC of
bits 31:0; OP 3 with bits 79:32 zero gives DEC of bits 31:0; every other word is illegal. (R82) -/
def Obligations.EveryWordDecodesByItsFields : Prop :=
  ∀ w : CmdWord,
    (w.extractLsb' 80 4 = 1 → decode w = .ok (.keyload (w.extractLsb' 0 80))) ∧
    (w.extractLsb' 80 4 = 2 → w.extractLsb' 32 48 = 0 → decode w = .ok (.enc (w.extractLsb' 0 32))) ∧
    (w.extractLsb' 80 4 = 3 → w.extractLsb' 32 48 = 0 → decode w = .ok (.dec (w.extractLsb' 0 32))) ∧
    (¬ (w.extractLsb' 80 4 = 1 ∨
        ((w.extractLsb' 80 4 = 2 ∨ w.extractLsb' 80 4 = 3) ∧ w.extractLsb' 32 48 = 0)) →
      ∃ e, decode w = .error e)

/-- A word decodes to a command if and only if it is legal by the two cases of R77 (checked by arithmetic on the word,
apart from the decoder). Accepting an illegal word writes the response (ILLEGAL_CMD, 0) and changes nothing else.
(R77) -/
def Obligations.ExactlyTheLegalWordsAreCommands : Prop :=
  ∀ w : CmdWord,
    (legalWord w = true ↔ ∃ i, decode w = .ok i) ∧
    (legalWord w = false → ∀ s : State,
      accept w s = .next { s with respValid := true, respStatus := .illegalCmd, respData := 0 })

/-- For every key and every i in 0..9, K[i] is the key divided by 2^(72-8i), modulo 256; and two keys with the same
ten bytes are equal. (R20) -/
def Obligations.KeyBytesAreMostSignificantFirst : Prop :=
  (∀ (k : Key) (i : Fin 10), (keyByte k i).toNat = k.toNat / 2 ^ (72 - 8 * i.val) % 256) ∧
  (∀ k k' : Key, (∀ i : Fin 10, keyByte k i = keyByte k' i) → k = k')

/-- A word is its byte sequence read most significant first; HI16 and LO16 are its upper and lower halves and JOIN
rebuilds it; HB and LB are the high and low byte of a half. (20_memory.md section 2) -/
def Obligations.WordsAndHalvesSplitMostSignificantFirst : Prop :=
  (∀ x : Word, (wordBytes x).map BitVec.toNat =
      [x.toNat / 2 ^ 24, x.toNat / 2 ^ 16 % 256, x.toNat / 2 ^ 8 % 256, x.toNat % 256]) ∧
  (∀ x : Word, (hi16 x).toNat = x.toNat / 2 ^ 16 ∧ (lo16 x).toNat = x.toNat % 2 ^ 16) ∧
  (∀ a b : Half, (join a b).toNat = 2 ^ 16 * a.toNat + b.toNat) ∧
  (∀ w : Half, (hb w).toNat = w.toNat / 2 ^ 8 ∧ (lb w).toNat = w.toNat % 2 ^ 8)

/-- For every key and every round r in 0..23 the four round-key bytes are those of the row r mod 5 of the table, and
rounds r and r + 5 use the same four bytes. (R131) -/
def Obligations.KeyScheduleHasPeriodFive : Prop :=
  ∀ (k : Key) (r : Nat), r < 24 →
    (r % 5 = 0 → roundKey k r = ⟨keyByte k 0, keyByte k 1, keyByte k 2, keyByte k 3⟩) ∧
    (r % 5 = 1 → roundKey k r = ⟨keyByte k 4, keyByte k 5, keyByte k 6, keyByte k 7⟩) ∧
    (r % 5 = 2 → roundKey k r = ⟨keyByte k 8, keyByte k 9, keyByte k 0, keyByte k 1⟩) ∧
    (r % 5 = 3 → roundKey k r = ⟨keyByte k 2, keyByte k 3, keyByte k 4, keyByte k 5⟩) ∧
    (r % 5 = 4 → roundKey k r = ⟨keyByte k 6, keyByte k 7, keyByte k 8, keyByte k 9⟩) ∧
    (r + 5 < 24 → roundKey k (r + 5) = roundKey k r)

/-- For every build, key, half w and round r: g1 and g2 are the high and low byte of w, k1..k4 are K[(4r+j) mod 10],
g3 = S[g2^k1]^g1, g4 = S[g3^k2]^g2, g5 = S[g4^k3]^g3, g6 = S[g5^k4]^g4, and G(w, r) has g5 as its high byte and g6
as its low byte. (R132) -/
def Obligations.GBoxIsFourChainedLookups : Prop :=
  ∀ (c : Config) (k : Key) (w : Half) (r : Nat),
    let s : Byte → Byte := fun a => c.sbox[a.toNat]'a.isLt
    let kb : Nat → Byte := fun j => k.extractLsb' (72 - 8 * ((4 * r + j) % 10)) 8
    let g1 : Byte := w.extractLsb' 8 8
    let g2 : Byte := w.extractLsb' 0 8
    let g3 := s (g2 ^^^ kb 0) ^^^ g1
    let g4 := s (g3 ^^^ kb 1) ^^^ g2
    let g5 := s (g4 ^^^ kb 2) ^^^ g3
    let g6 := s (g5 ^^^ kb 3) ^^^ g4
    gBox c k w r = g5 ++ g6

/-- For every build (permutation or not), every key and every round index, G(., r) is a bijection on 16-bit values.
(R134) -/
def Obligations.GBoxIsABijection : Prop :=
  ∀ (c : Config) (k : Key) (r : Nat), Function.Bijective fun w => gBox c k w r

/-- The tweak is 0 under DOC and the zero-extended round index under SKIP32_REF; FR(r, L, R) = (R, L ^ (G(R, r) ^
TWEAK(r))); IR(r, L, R) = (R ^ (G(L, r) ^ TWEAK(r)), L). (R140, R141, R142) -/
def Obligations.RoundStepsFollowTheirFormulas : Prop :=
  ∀ (c : Config) (k : Key) (r : Nat) (l rt : Half), r < 24 →
    (c.roundForm = .doc → tweak c r = 0) ∧
    (c.roundForm = .skip32Ref → (tweak c r).toNat = r) ∧
    forwardRound c k r ⟨l, rt⟩ = ⟨rt, l ^^^ (gBox c k rt r ^^^ tweak c r)⟩ ∧
    inverseRound c k r ⟨l, rt⟩ = ⟨rt ^^^ (gBox c k l r ^^^ tweak c r), l⟩

/-- For every build, key, round and pair of halves, IR(r, FR(r, L, R)) = (L, R) and FR(r, IR(r, L, R)) = (L, R).
(R143) -/
def Obligations.RoundStepsUndoEachOther : Prop :=
  ∀ (c : Config) (k : Key) (r : Nat) (h : Halves),
    inverseRound c k r (forwardRound c k r h) = h ∧ forwardRound c k r (inverseRound c k r h) = h

/-- ENC_IN, ENC_OUT, DEC_IN and DEC_OUT are the mappings of R146 to R149 in each round form; DEC_OUT undoes ENC_IN and
DEC_IN undoes ENC_OUT. (R146, R147, R148, R149) -/
def Obligations.HalfMappingsFollowTheirFormulas : Prop :=
  ∀ (c : Config) (x : Word) (h : Halves),
    (c.roundForm = .doc → encIn c x = ⟨hi16 x, lo16 x⟩ ∧ decOut c h = join h.left h.right) ∧
    (c.roundForm = .skip32Ref → encIn c x = ⟨lo16 x, hi16 x⟩ ∧ decOut c h = join h.right h.left) ∧
    encOut h = join h.left h.right ∧ decIn x = ⟨hi16 x, lo16 x⟩ ∧
    decOut c (encIn c x) = x ∧ decIn (encOut h) = h

/-- For every build, every key and all 32-bit values, FEISTEL_DEC(K, FEISTEL_ENC(K, x)) = x and FEISTEL_ENC(K,
FEISTEL_DEC(K, y)) = y. (R154) -/
def Obligations.DecryptAndEncryptUndoEachOther : Prop :=
  ∀ (c : Config) (k : Key) (x : Word),
    feistelDec c k (feistelEnc c k x) = x ∧ feistelEnc c k (feistelDec c k x) = x

/-- For every build and key, FEISTEL_ENC is a bijection, FEISTEL_DEC is a bijection, and FEISTEL_DEC is the two-sided
inverse of FEISTEL_ENC. (R155) -/
def Obligations.EncryptIsABijection : Prop :=
  ∀ (c : Config) (k : Key),
    Function.Bijective (feistelEnc c k) ∧ Function.Bijective (feistelDec c k) ∧
    Function.LeftInverse (feistelDec c k) (feistelEnc c k) ∧
    Function.RightInverse (feistelDec c k) (feistelEnc c k)

/-- For every build whose round form is SKIP32_REF, every key and every value, FEISTEL_ENC equals skip32_ref with
encrypt = true and FEISTEL_DEC equals skip32_ref with encrypt = false. The reference function is the spec's
general knowledge (log entry 17). (43_feistel_engine.md section 6 (rule R156)) -/
def Obligations.ReferenceFormIsThePublishedCipher : Prop :=
  ∀ (c : Config) (k : Key) (x : Word), c.roundForm = .skip32Ref →
    feistelEnc c k x = skip32Ref c k x true ∧ feistelDec c k x = skip32Ref c k x false

/-- If all ten key bytes are equal, G is the same in every round; and if moreover the round form is DOC,
FEISTEL_DEC(K, y) = SWAP(FEISTEL_ENC(K, SWAP(y))). (43_feistel_engine.md section 6 (rule R158)) -/
def Obligations.EqualKeyBytesMakeDecryptASwappedEncrypt : Prop :=
  ∀ (c : Config) (k : Key) (b : Byte), (∀ i : Fin 10, keyByte k i = b) →
    (∀ (w : Half) (r r' : Nat), gBox c k w r = gBox c k w r') ∧
    (c.roundForm = .doc → ∀ y : Word, feistelDec c k y = swapHalves (feistelEnc c k (swapHalves y)))

/-- In every state and for every 80-bit key (all-zero and all-ones among them), exec of KEYLOAD answers the state with
KEY the key, KEY_VALID 1, RESP_VALID 1, RESP_STATUS OK and RESP_DATA 0, every other field unchanged. Its word is
OP 0x1 and the key. It is not accepted while BUSY = 1 or a response waits. The worked word loads 12 34 56 78 90 ab
cd ef 01 23. (R108) -/
def Obligations.KeyloadLoadsTheKeyAndAnswersOk : Prop :=
  (∀ (k : Key) (s : State),
    exec (.keyload k) s =
      .next { s with key := k, keyValid := true, respValid := true, respStatus := .ok, respData := 0 }) ∧
  (∀ k : Key, decode ((1 : BitVec 4) ++ k) = .ok (.keyload k)) ∧
  (∀ s : State, (s.busy = true ∨ s.respValid = true) → s.acceptedWord = none) ∧
  decode 0x11234567890abcdef0123 = .ok (.keyload 0x1234567890abcdef0123) ∧
  (List.finRange 10).map (keyByte 0x1234567890abcdef0123) =
    [0x12, 0x34, 0x56, 0x78, 0x90, 0xab, 0xcd, 0xef, 0x01, 0x23]

/-- For every state with KEY_VALID = 1 and every operand, exec of ENC answers the state with the halves of ENC_IN
(high half left under DOC, right under SKIP32_REF), ROUND 0, DIR forward and BUSY 1, every other field unchanged.
(44_cipher_commands.md R170 (acceptance edge), 43_feistel_engine.md R146) -/
def Obligations.EncWithAKeyStartsTheForwardRounds : Prop :=
  ∀ (d : Word) (s : State), s.keyValid = true →
    (s.cfg.roundForm = .doc →
      exec (.enc d) s = .next { s with
        left := d.extractLsb' 16 16, right := d.extractLsb' 0 16, round := 0, dir := .forward, busy := true }) ∧
    (s.cfg.roundForm = .skip32Ref →
      exec (.enc d) s = .next { s with
        left := d.extractLsb' 0 16, right := d.extractLsb' 16 16, round := 0, dir := .forward, busy := true })

/-- For every state with KEY_VALID = 1 and every operand, exec of DEC answers the state with the halves of DEC_IN,
ROUND 23, DIR inverse and BUSY 1, every other field unchanged, in both round forms. (44_cipher_commands.md R171
(acceptance edge), 43_feistel_engine.md R148) -/
def Obligations.DecWithAKeyStartsTheInverseRounds : Prop :=
  ∀ (d : Word) (s : State), s.keyValid = true →
    exec (.dec d) s = .next { s with
      left := d.extractLsb' 16 16, right := d.extractLsb' 0 16, round := 23, dir := .inverse, busy := true }

/-- For every state with KEY_VALID = 0 and every operand, exec of ENC and of DEC answers the state with the response
(NO_KEY, 0), every other field unchanged. (60_exceptions.md section 1 (rule R202)) -/
def Obligations.EncAndDecWithoutAKeyAnswerNoKey : Prop :=
  ∀ (d : Word) (s : State), s.keyValid = false →
    exec (.enc d) s = .next { s with respValid := true, respStatus := .noKey, respData := 0 } ∧
    exec (.dec d) s = .next { s with respValid := true, respStatus := .noKey, respData := 0 }

/-- When exec of KEYLOAD answers a next state, L, R, ROUND, DIR, BUSY, the build parameters and the host's coming
levels are unchanged; only KEY, KEY_VALID and the response register may differ. (40_key_material.md R111 (law 3),
40_key_material.md R108) -/
def Obligations.KeyloadFrame : Prop :=
  ∀ (k : Key) (s t : State), exec (.keyload k) s = .next t →
    t.left = s.left ∧ t.right = s.right ∧ t.round = s.round ∧ t.dir = s.dir ∧ t.busy = s.busy ∧
    t.cfg = s.cfg ∧ t.inputs = s.inputs

/-- When exec of ENC or DEC answers a next state, KEY, KEY_VALID, the build parameters and the host's coming levels
are unchanged; with a key the response register is unchanged too; without one L, R, ROUND, DIR and BUSY are.
(44_cipher_commands.md R170 and R171, 60_exceptions.md R202) -/
def Obligations.CipherCommandFrame : Prop :=
  ∀ (d : Word) (s t : State), (exec (.enc d) s = .next t ∨ exec (.dec d) s = .next t) →
    t.key = s.key ∧ t.keyValid = s.keyValid ∧ t.cfg = s.cfg ∧ t.inputs = s.inputs ∧
    (s.keyValid = true →
      t.respValid = s.respValid ∧ t.respStatus = s.respStatus ∧ t.respData = s.respData) ∧
    (s.keyValid = false →
      t.left = s.left ∧ t.right = s.right ∧ t.round = s.round ∧ t.dir = s.dir ∧ t.busy = s.busy)

/-- From an idle engine, a KEYLOAD of k1, the edge that takes its response (OK, 0), and a KEYLOAD of k2 leave the
state that a KEYLOAD of k2 alone leaves: KEY = k2, KEY_VALID = 1 and the response (OK, 0), every other register
unchanged. Only the number of responses differs. The last clause says the same of exec in every state, the
response taken in between; in a state that is not ready exec is the model's reading of an acceptance edge (log
entry 7, DEDUCED). (40_key_material.md R111 (law 2), 30_encoding.md R71 and R72) -/
def Obligations.RepeatedKeyloadKeepsOnlyTheLastKey : Prop :=
  (∀ (s : State) (k1 k2 : Key) (ps : List Pins), s.busy = false → s.respValid = false →
    let both : State :=
      { s with inputs := offer (encode (.keyload k1)) :: takePins :: offer (encode (.keyload k2)) :: ps }
    let last : State := { s with inputs := offer (encode (.keyload k2)) :: ps }
    let u : State :=
      { s with key := k2, keyValid := true, respValid := true, respStatus := .ok, respData := 0, inputs := ps }
    steps 3 both = .next u ∧ step last = .next u ∧
    acceptedWords 3 both = [encode (.keyload k1), encode (.keyload k2)] ∧ takenResponses 3 both = [(.ok, 0)]) ∧
  (∀ (s t u : State) (k1 k2 : Key), exec (.keyload k1) s = .next t → exec (.keyload k2) t.takeResponse = .next u →
    exec (.keyload k2) s = .next u)

/-- If cmd_ready and cmd_valid are 1 and the offered word decodes to i, the step is exec of i at the state whose host
levels have moved on by one edge. A word placed by withFetchWord is accepted at the very next step: this second
clause is about withFetchWord and decodeTableWord, which are the model's choice and no rule of the spec (log
entries 8 and 18, DESIGN CHOICE). (30_encoding.md R83, 30_encoding.md R71) -/
def Obligations.StepRunsTheDecodedCommand : Prop :=
  (∀ (s : State) (i : Instr), s.cmdReady = true → s.pins.cmdValid = true → decode s.pins.cmdWord = .ok i →
    step s = exec i { s with inputs := s.inputs.tail }) ∧
  (∀ (s : State) (nbits w : Nat) (i : Instr), decodeTableWord nbits w = some i →
    step (s.withFetchWord nbits w) =
      exec i { s with busy := false, respValid := false, inputs := s.inputs.tail })

/-- If cmd_ready and cmd_valid are 1 and the offered word is illegal, the step answers the state with the response
(ILLEGAL_CMD, 0), every other register unchanged, whatever KEY_VALID is. (R201) -/
def Obligations.IllegalWordIsAnsweredWithIllegalCmd : Prop :=
  ∀ (s : State) (e : IllegalWord), s.cmdReady = true → s.pins.cmdValid = true →
    decode s.pins.cmdWord = .error e →
    step s = .next { s with
      respValid := true, respStatus := .illegalCmd, respData := 0, inputs := s.inputs.tail }

/-- At an edge with rst = 1 the step writes KEY_VALID, BUSY and RESP_VALID to 0 and nothing else; cmd_ready is 0, no
command is accepted and no response taken; a second such edge has no further effect. However many edges follow at
which rst = 1 or cmd_valid = 0, nothing is accepted at them, and the engine accepts the word offered at the first
edge with rst = 0 and cmd_valid = 1. That KEY, L, R, ROUND, DIR, RESP_STATUS and RESP_DATA keep their values is
log entry 20 (DEDUCED, unsafe): R231 says that reset writes nothing else and that these hold unspecified values
after it. (70_reset_and_hazards.md R230, 70_reset_and_hazards.md R231, 10_state.md R35,
93_implementation_defined.md U4 to U6) -/
def Obligations.ResetEdgeClearsTheThreeFlagsOnly : Prop :=
  ∀ s : State, s.pins.rst = true →
    step s = .next { s with keyValid := false, busy := false, respValid := false, inputs := s.inputs.tail } ∧
    s.cmdReady = false ∧ s.acceptedWord = none ∧ s.takenResponse = none ∧
    (∀ t : State, step s = .next t → t.pins.rst = true → step t = .next { t with inputs := t.inputs.tail }) ∧
    (∀ n : Nat, (∀ p ∈ s.inputs.tail.take n, p.rst = true ∨ p.cmdValid = false) →
      ∃ u, steps (n + 1) s = .next u ∧ acceptedWords (n + 1) s = [] ∧ u.inputs = s.inputs.tail.drop n ∧
        (u.pins.rst = false → u.pins.cmdValid = true → u.acceptedWord = some u.pins.cmdWord))

/-- If rst = 1 at an edge, then after that edge and after every later one up to the next acceptance (further reset
edges among them, whatever the host offers afterwards) the run goes on, no response is valid, none is taken and
BUSY is 0: the operation in progress and the response waiting are gone. (70_reset_and_hazards.md R232,
70_reset_and_hazards.md R233) -/
def Obligations.ResetAbortsTheOperationForGood : Prop :=
  ∀ (s t : State) (n : Nat), s.pins.rst = true → step s = .next t → acceptedWords n t = [] →
    ∃ u, steps n t = .next u ∧ u.respValid = false ∧ u.busy = false ∧ takenResponses n t = []

/-- rsp_valid is RESP_VALID and rsp_word is {STATUS, DATA} of RESP_STATUS and RESP_DATA while it is 1, with the codes
OK 0, NO_KEY 1, ILLEGAL_CMD 2 and 3 reserved. At an edge with rst = 0, BUSY = 0 and a response waiting (with BUSY
= 1 the edge is a round step, and no run has both), the step clears RESP_VALID if rsp_ready = 1 and changes no
register otherwise, and accepts no command. An idle engine offered nothing (rst = 0 and cmd_valid = 0) keeps every
register. (30_encoding.md R72, 30_encoding.md R78, 30_encoding.md R79, 30_encoding.md R83 (the branches without
BUSY), 60_exceptions.md R214) -/
def Obligations.ResponseStaysOfferedUntilTaken : Prop :=
  (Status.ok.code = 0 ∧ Status.noKey.code = 1 ∧ Status.illegalCmd.code = 2 ∧ Status.reserved.code = 3) ∧
  ∀ s : State,
    s.outputs.rspValid = s.respValid ∧
    (s.respValid = true → s.outputs.rspWord = some (s.respStatus.code ++ s.respData)) ∧
    (s.busy = false → s.pins.rst = false → s.respValid = true →
      s.acceptedWord = none ∧
      (s.pins.rspReady = true → step s = .next { s with respValid := false, inputs := s.inputs.tail }) ∧
      (s.pins.rspReady = false → step s = .next { s with inputs := s.inputs.tail })) ∧
    (s.busy = false → s.pins.rst = false → s.respValid = false → s.pins.cmdValid = false →
      step s = .next { s with inputs := s.inputs.tail })

/-- The output cmd_ready is (rst = 0) and (BUSY = 0) and (RESP_VALID = 0). When it is 1 and cmd_valid is 1, the step
accepts the offered word; when it is 0, the step is the same whatever cmd_valid and cmd_word are. (R71) -/
def Obligations.CommandIsAcceptedExactlyWhenReady : Prop :=
  ∀ s : State,
    s.outputs.cmdReady = s.cmdReady ∧
    (s.cmdReady = true ↔ s.pins.rst = false ∧ s.busy = false ∧ s.respValid = false) ∧
    (s.cmdReady = true → s.pins.cmdValid = true →
      step s = accept s.pins.cmdWord { s with inputs := s.inputs.tail }) ∧
    (s.cmdReady = false → ∀ (v : Bool) (w : CmdWord),
      step { s with inputs := { s.pins with cmdValid := v, cmdWord := w } :: s.inputs.tail } = step s)

/-- At an edge with rst = 0, BUSY = 1 and ROUND in 0..23 the step writes the halves of FR (DIR forward) or IR (DIR
inverse). At the last round (23 forward, 0 inverse) BUSY becomes 0, ROUND keeps its value and the response (OK,
ENC_OUT or DEC_OUT of the new halves) is written; otherwise ROUND moves by one. Nothing else changes. The output
busy is BUSY in every state. (43_feistel_engine.md section 5 (rule R151), 10_state.md R28 and R32) -/
def Obligations.BusyEdgeMakesOneRoundStep : Prop :=
  (∀ s : State, s.outputs.busy = s.busy) ∧
  ∀ s : State, s.pins.rst = false → s.busy = true → s.round.toNat < 24 →
    (s.dir = .forward →
      let h := forwardRound s.cfg s.key s.round.toNat ⟨s.left, s.right⟩
      (s.round = 23 → step s = .next { s with
        left := h.left, right := h.right, busy := false, respValid := true, respStatus := .ok,
        respData := encOut h, inputs := s.inputs.tail }) ∧
      (s.round ≠ 23 → step s = .next { s with
        left := h.left, right := h.right, round := s.round + 1, inputs := s.inputs.tail })) ∧
    (s.dir = .inverse →
      let h := inverseRound s.cfg s.key s.round.toNat ⟨s.left, s.right⟩
      (s.round = 0 → step s = .next { s with
        left := h.left, right := h.right, busy := false, respValid := true, respStatus := .ok,
        respData := decOut s.cfg h, inputs := s.inputs.tail }) ∧
      (s.round ≠ 0 → step s = .next { s with
        left := h.left, right := h.right, round := s.round - 1, inputs := s.inputs.tail }))

/-- No state makes the step fault. The step is refused exactly at an edge with rst = 0, BUSY = 1 and ROUND in 24..31,
by the name roundOutOfRange. The refusal is the model's choice of the treatment the spec names for U8 (log entry
6). (60_exceptions.md R200, 93_implementation_defined.md U8) -/
def Obligations.RoundOutOfRangeIsTheOnlyStop : Prop :=
  (∀ (s : State) (f : Fault), step s ≠ .fault f) ∧
  (∀ (s : State) (r : Refusal), step s = .refused r ↔
    s.pins.rst = false ∧ s.busy = true ∧ 24 ≤ s.round.toNat ∧ r = .roundOutOfRange)

/-- For every build, the state right after reset has KEY_VALID = 0, BUSY = 0 and RESP_VALID = 0, keeps the build
parameters and meets the invariant; the machine's reset state is that of the build DOC, whose S-box contents are a
permutation. (10_state.md R35, 00_scope.md R7 and R8) -/
def Obligations.StateAfterResetMeetsTheInvariant : Prop :=
  (∀ c : Config, (State.afterReset c).keyValid = false ∧ (State.afterReset c).busy = false ∧
    (State.afterReset c).respValid = false ∧ (State.afterReset c).cfg = c ∧ (State.afterReset c).Inv) ∧
  State.reset.Inv ∧ State.reset.cfg.roundForm = .doc ∧ State.reset.cfg.legal = true

/-- From every state that meets the invariant (an operation runs only with a key, without a waiting response and with
ROUND in 0..23; a waiting response has no reserved code, and DATA 0 with every error), a step that answers a next
state answers one that meets it. (43_feistel_engine.md R151 and R152, 60_exceptions.md R200 and R215,
44_cipher_commands.md R170 and R171) -/
def Obligations.EveryStepKeepsTheInvariant : Prop :=
  ∀ s t : State, s.Inv → step s = .next t → t.Inv

/-- From every state that meets the invariant, for every number of edges and every host behaviour, the run neither
faults nor is refused, and its last state meets the invariant. (60_exceptions.md R200, 70_reset_and_hazards.md
R241) -/
def Obligations.RunsFromTheInvariantNeverStop : Prop :=
  ∀ (n : Nat) (s : State), s.Inv → ∃ t, steps n s = .next t ∧ t.Inv

/-- Whatever a step does, the build parameters after it are those before it. (10_state.md R24,
41_substitution_table.md R120) -/
def Obligations.SboxAndRoundFormAreNeverWritten : Prop :=
  ∀ s t : State, step s = .next t → t.cfg.sbox = s.cfg.sbox ∧ t.cfg.roundForm = s.cfg.roundForm

/-- After a step KEY is what it was, unless a KEYLOAD was accepted at it, and then KEY is that command's 80 key bits.
At a reset edge, where nothing is accepted, this says that KEY survives the reset: that is log entry 20 (DEDUCED,
unsafe) and the treatment U14 gives a model, while R22 and R110 leave KEY unspecified after reset and promise
nothing. In every state, in the middle of an operation too, the output ports are the same whatever KEY, L, R,
ROUND and DIR are. (10_state.md R21, 10_state.md R33, 93_implementation_defined.md U14) -/
def Obligations.OnlyAnAcceptedKeyloadWritesKey : Prop :=
  (∀ s t : State, step s = .next t →
    (∀ w k, s.acceptedWord = some w → decode w = .ok (.keyload k) → t.key = k) ∧
    ((∀ w k, s.acceptedWord = some w → decode w ≠ .ok (.keyload k)) → t.key = s.key)) ∧
  (∀ (s : State) (k : Key) (l r : Half) (n : BitVec 5) (d : Dir),
    ({ s with key := k, left := l, right := r, round := n, dir := d } : State).outputs = s.outputs)

/-- KEY_VALID is 0 after reset. An accepted KEYLOAD sets it. A step that clears it is a reset edge, and one that sets
it accepted a KEYLOAD. It is driven on key_valid. An ENC or DEC accepted while it is 0 gets the NO_KEY response.
(R23) -/
def Obligations.KeyValidIsSetByKeyloadAndClearedByReset : Prop :=
  State.reset.keyValid = false ∧
  (∀ s : State, s.outputs.keyValid = s.keyValid) ∧
  (∀ s t : State, step s = .next t →
    (∀ w k, s.acceptedWord = some w → decode w = .ok (.keyload k) → t.keyValid = true) ∧
    (s.keyValid = true → t.keyValid = false → s.pins.rst = true) ∧
    (s.keyValid = false → t.keyValid = true → ∃ w k, s.acceptedWord = some w ∧ decode w = .ok (.keyload k)) ∧
    (∀ w d, s.acceptedWord = some w → s.keyValid = false → (decode w = .ok (.enc d) ∨ decode w = .ok (.dec d)) →
      t.respValid = true ∧ t.respStatus = .noKey ∧ t.respData = 0))

/-- A step never writes the reserved code into RESP_STATUS. At a reset edge this first clause rests on RESP_STATUS
keeping its value, which is log entry 20 (DEDUCED, unsafe): R35 and U6 leave it unspecified after reset, with
RESP_VALID = 0. A host reads nothing while RESP_VALID = 0, and the status and data held for each of the other
three codes. From the invariant no response a host reads is the fault, and a host that is offered the code reads
the fault: this last clause is the treatment U10 names for a host model and R215 only allows (log entry 13,
DEDUCED). (60_exceptions.md R215, 10_state.md R29, 10_state.md R35, 93_implementation_defined.md U6 and U10) -/
def Obligations.ReservedStatusIsNeverProduced : Prop :=
  (∀ s t : State, step s = .next t → t.respStatus = .reserved → s.respStatus = .reserved) ∧
  (∀ s : State, s.respValid = false → readResponse s = none) ∧
  (∀ s : State, s.respValid = true → s.respStatus ≠ .reserved →
    readResponse s = some (.ok (s.respStatus, s.respData))) ∧
  (∀ (s : State) (f : Fault), s.Inv → readResponse s ≠ some (.error f)) ∧
  (∀ s : State, s.respValid = true → s.respStatus = .reserved → readResponse s = some (.error .reservedStatus))

/-- Two engines that differ at most in KEY without KEY_VALID, the datapath outside an operation, and the response
fields without RESP_VALID show the same outputs at every edge, for every number of edges and every host behaviour.
Two engines of the same build, with the same host and their three flags clear, differ at most so, whatever KEY, L,
R, ROUND, DIR, RESP_STATUS and RESP_DATA hold in each. That RESP_STATUS and RESP_DATA reach no port without
RESP_VALID is the model's reading of R29, by which rsp_word has no value then (log entry 10, DEDUCED).
(10_state.md R22, R29 and R35, 93_implementation_defined.md U4 to U6) -/
def Obligations.UnspecifiedRegistersNeverReachAnOutput : Prop :=
  (∀ (n : Nat) (s t : State), s.SameShown t → shownOutputs n s = shownOutputs n t) ∧
  (∀ s t : State, s.cfg = t.cfg → s.inputs = t.inputs → s.flagsClear = true → t.flagsClear = true →
    s.SameShown t)

/-- If a word is accepted at the next edge and no reset follows, then for as many edges as the command's latency the
engine is busy with no response, and after one more edge it is not busy and holds exactly the response, the key
and KEY_VALID the transaction level gives, with the build unchanged and one set of host levels used per edge.
(R12) -/
def Obligations.EdgesMeetTheTransactionLevel : Prop :=
  ∀ (s : State) (w : CmdWord), s.acceptedWord = some w → s.noReset = true →
    (∀ n, 0 < n → n ≤ latency s.keyState w → ∃ t, steps n s = .next t ∧ t.busy = true ∧ t.respValid = false) ∧
    ∃ t, steps (latency s.keyState w + 1) s = .next t ∧
      t.busy = false ∧ t.respValid = true ∧ (t.respStatus, t.respData) = answer s.cfg s.keyState w ∧
      t.keyState = keyAfter s.keyState w ∧ t.cfg = s.cfg ∧ t.inputs = s.inputs.drop (latency s.keyState w + 1)

/-- If an ENC or DEC word is accepted at the next edge with KEY_VALID = 1 and no reset follows, then among the first
25 edges the response is valid after the 25th and after no earlier one: exactly 24 edges after the acceptance
edge. BUSY is 1 after each of edges 1 to 24 and after none of the others, and each edge that follows one of these
is a round step: exactly 24 of them. (R157) -/
def Obligations.CipherLatencyIsConstant : Prop :=
  ∀ (s : State) (w : CmdWord) (d : Word), s.acceptedWord = some w → s.keyValid = true → s.noReset = true →
    (decode w = .ok (.enc d) ∨ decode w = .ok (.dec d)) →
    ∀ n, n ≤ 1 + Config.pLat → ∃ t, steps n s = .next t ∧
      (t.respValid = true ↔ n = 1 + Config.pLat) ∧
      (t.busy = true ↔ 1 ≤ n ∧ n ≤ 24) ∧
      (1 ≤ n → n ≤ 24 → step t = roundStep { t with inputs := t.inputs.tail })

/-- From an idle engine, for every host that does not reset it and every number of edges, the responses taken are an
initial part of the transaction level's responses to the words accepted, in order, and at most one accepted
command is still unanswered. (R61) -/
def Obligations.ResponsesAnswerTheCommandsInOrder : Prop :=
  ∀ (n : Nat) (s : State), s.busy = false → s.respValid = false → s.noReset = true →
    takenResponses n s <+: answers s.cfg s.keyState (acceptedWords n s) ∧
    (acceptedWords n s).length ≤ (takenResponses n s).length + 1

/-- An idle engine whose host issues a command stream at the fastest rate accepts exactly those words, hands over
exactly the transaction level's responses, and is idle with the transaction level's key state at the end; each
KEYLOAD or error takes 2 edges and each ENC or DEC with a key 26. (70_reset_and_hazards.md R240, 20_memory.md R61) -/
def Obligations.FastestIssueAnswersEveryCommand : Prop :=
  (∀ (ws : List CmdWord) (s : State), s.busy = false → s.respValid = false → s.inputs = issueAll s.keyState ws →
    acceptedWords s.inputs.length s = ws ∧
    takenResponses s.inputs.length s = answers s.cfg s.keyState ws ∧
    ∃ t, steps s.inputs.length s = .next t ∧ t.busy = false ∧ t.respValid = false ∧
      t.keyState = keyAfterAll s.keyState ws) ∧
  (∀ (ks : KeyState) (w : CmdWord), (issueOne ks w).length =
    if ks.keyValid = true ∧ ∃ d, decode w = .ok (.enc d) ∨ decode w = .ok (.dec d) then 26 else 2)

/-- From a busy state that meets the invariant, without a reset, some number of at most 24 edges leads to a state that
is not busy and has a valid response. A step that takes a response leaves BUSY = 0 and RESP_VALID = 0.
(70_reset_and_hazards.md R241) -/
def Obligations.BusyEndsWithinTwentyFourEdges : Prop :=
  (∀ s : State, s.Inv → s.busy = true → s.noReset = true →
    ∃ n, n ≤ 24 ∧ ∃ t, steps n s = .next t ∧ t.busy = false ∧ t.respValid = true) ∧
  (∀ (s t : State) (r : Response), s.Inv → s.takenResponse = some r → step s = .next t →
    t.busy = false ∧ t.respValid = false)

/-- In every build, whatever key state came before: the stream KEYLOAD k, ENC x, DEC of the ciphertext answers (OK,
0), (OK, FEISTEL_ENC), (OK, x), and the stream KEYLOAD k, DEC x, ENC of the result answers (OK, 0), (OK,
FEISTEL_DEC), (OK, x). The key state after either stream is k with KEY_VALID = 1. (44_cipher_commands.md R174
(laws 1 to 3), 40_key_material.md R111 (law 1)) -/
def Obligations.EncThenDecAnswersThePlaintext : Prop :=
  ∀ (c : Config) (ks : KeyState) (k : Key) (x : Word),
    answers c ks [encode (.keyload k), encode (.enc x), encode (.dec (feistelEnc c k x))] =
      [(.ok, 0), (.ok, feistelEnc c k x), (.ok, x)] ∧
    answers c ks [encode (.keyload k), encode (.dec x), encode (.enc (feistelDec c k x))] =
      [(.ok, 0), (.ok, feistelDec c k x), (.ok, x)] ∧
    keyAfterAll ks [encode (.keyload k), encode (.enc x), encode (.dec (feistelEnc c k x))] = ⟨k, true⟩ ∧
    keyAfterAll ks [encode (.keyload k), encode (.dec x), encode (.enc (feistelDec c k x))] = ⟨k, true⟩

/-- For every build, every key and every integer v in -2^31..2^31-1: with the key loaded, ENC of v's two's-complement
pattern answers OK and a pattern, and Encrypt(v) is the int32 with that pattern; the same for DEC and Decrypt. And
Decrypt(Encrypt(v)) = v and Encrypt(Decrypt(v)) = v. (44_cipher_commands.md R172, 95_test_vectors.md W-3a) -/
def Obligations.IntViewRoundTrips : Prop :=
  ∀ (c : Config) (k : Key) (v : Int), -2 ^ 31 ≤ v → v < 2 ^ 31 →
    answer c ⟨k, true⟩ (encode (.enc (BitVec.ofInt 32 v))) = (.ok, BitVec.ofInt 32 (encryptInt c k v)) ∧
    answer c ⟨k, true⟩ (encode (.dec (BitVec.ofInt 32 v))) = (.ok, BitVec.ofInt 32 (decryptInt c k v)) ∧
    (-2 ^ 31 ≤ encryptInt c k v ∧ encryptInt c k v < 2 ^ 31) ∧
    (-2 ^ 31 ≤ decryptInt c k v ∧ decryptInt c k v < 2 ^ 31) ∧
    decryptInt c k (encryptInt c k v) = v ∧ encryptInt c k (decryptInt c k v) = v

/-- The legality check of a build holds exactly when reading the S-box is a bijection on 8-bit values; configuring a
legal build gives its reset state and configuring any other is refused by name. (41_substitution_table.md R120 and
R124, 00_scope.md R7) -/
def Obligations.PermutationCheckMeansABijection : Prop :=
  ∀ c : Config,
    (c.legal = true ↔ Function.Bijective (sboxRead c)) ∧
    (c.legal = true → State.configured c = .next (State.afterReset c)) ∧
    (c.legal = false → State.configured c = .refused .sboxNotPermutation)

/-- An absent input is NullArgument; a present one whose length is not 10, the empty one among them, is InvalidLength;
one of length 10 gives exactly its bytes. (R101) -/
def Obligations.KeyFromBytesChecksPresenceThenLength : Prop :=
  keyFromBytes none = .error .nullArgument ∧
  (∀ bs : List Byte, bs.length ≠ 10 → keyFromBytes (some bs) = .error .invalidLength) ∧
  (∀ bs : List Byte, bs.length = 10 → ∃ b : KeyBytes, keyFromBytes (some bs) = .ok b ∧ b.toList = bs)

/-- Decoding gives bytes bs exactly when the string is non-empty, has two characters per byte, and byte i is 16 times
the value of character 2i plus the value of character 2i+1, every character being a digit; the digit values are
those of 0-9, a-f and A-F and no other character has one. (R102) -/
def Obligations.HexDecodingReadsDigitPairsInOrder : Prop :=
  (∀ (cs : List Char) (bs : List Byte), decodeHex cs = some bs ↔
    cs ≠ [] ∧ cs.length = 2 * bs.length ∧
    ∀ i, i < bs.length → ∃ a b x y, cs[2 * i]? = some a ∧ cs[2 * i + 1]? = some b ∧
      hexDigit a = some x ∧ hexDigit b = some y ∧ bs[i]? = some (BitVec.ofNat 8 (16 * x + y))) ∧
  ("0123456789abcdef".toList.map hexDigit = (List.range 16).map some) ∧
  ("ABCDEF".toList.map hexDigit = [some 10, some 11, some 12, some 13, some 14, some 15]) ∧
  (∀ ch : Char, hexDigit ch ≠ none → ch ∈ "0123456789abcdefABCDEF".toList)

/-- A string decodes to bytes bs exactly when it is sextets xs written in the alphabet followed by at most two =
characters, its length is a multiple of 4, bs has three bytes per group of four less one per =, and byte i is the
byte at place i mod 3 (most significant first) of the 24 bits of group i div 3, a missing sextet counting as 0; so
the leftover low bits of a padded group are ignored. The values of the alphabet are 0 to 63 in the order A-Z, a-z,
0-9, +, / and no other character has one. The lengths: the number of bytes plus the number of = characters is
three per group. (40_key_material.md section 1 (rule R103)) -/
def Obligations.Base64DecodingKeepsLengths : Prop :=
  (∀ (cs : List Char) (bs : List Byte), decodeBase64 cs = some bs ↔
    ∃ (data : List Char) (xs : List Nat) (p : Nat),
      p ≤ 2 ∧ cs = data ++ List.replicate p '=' ∧ data.map base64Digit = xs.map some ∧
      cs.length % 4 = 0 ∧ bs.length + p = 3 * (cs.length / 4) ∧
      ∀ i, i < bs.length →
        let sextet : Nat → Nat := fun j => xs.getD (4 * (i / 3) + j) 0
        bs[i]? = some (BitVec.ofNat 8
          ((((sextet 0 * 64 + sextet 1) * 64 + sextet 2) * 64 + sextet 3) / 2 ^ (16 - 8 * (i % 3))))) ∧
  ("ABCDEFGHIJKLMNOPQRSTUVWXYZabcdefghijklmnopqrstuvwxyz0123456789+/".toList.map base64Digit =
    (List.range 64).map some) ∧
  (∀ ch : Char, base64Digit ch ≠ none →
    ch ∈ "ABCDEFGHIJKLMNOPQRSTUVWXYZabcdefghijklmnopqrstuvwxyz0123456789+/".toList) ∧
  (∀ (cs : List Char) (bs : List Byte), decodeBase64 cs = some bs →
    cs.length % 4 = 0 ∧ bs.length + cs.count '=' = 3 * (cs.length / 4)) ∧
  (∀ (a b c d : Char) (x y z w : Nat), base64Digit a = some x → base64Digit b = some y → base64Digit c = some z →
    base64Digit d = some w → ∃ b0 b1 b2 : Byte, decodeBase64 [a, b, c, d] = some [b0, b1, b2] ∧
      b0.toNat * 65536 + b1.toNat * 256 + b2.toNat = ((x * 64 + y) * 64 + z) * 64 + w)

/-- The format is HexString or Base64 and nothing else; a string is decoded by decode_hex (R102) or decode_base64
(R103) accordingly. An absent or empty string is NullArgument; a non-empty one that does not decode is
FormatError; one that decodes to a length other than 10 is InvalidLength; one that decodes to 10 bytes gives those
bytes. (R104) -/
def Obligations.KeyFromStringReportsTheFirstError : Prop :=
  (∀ f : KeyFormat, f = .hexString ∨ f = .base64) ∧
  decodeKeyText .hexString = decodeHex ∧ decodeKeyText .base64 = decodeBase64 ∧
  ∀ f : KeyFormat,
    keyFromString none f = .error .nullArgument ∧ keyFromString (some "") f = .error .nullArgument ∧
    (∀ s : String, s.toList ≠ [] →
      (decodeKeyText f s.toList = none → keyFromString (some s) f = .error .formatError) ∧
      (∀ bs, decodeKeyText f s.toList = some bs →
        (bs.length ≠ 10 → keyFromString (some s) f = .error .invalidLength) ∧
        (bs.length = 10 → ∃ b : KeyBytes, keyFromString (some s) f = .ok b ∧ b.toList = bs)))

/-- After an error the host issues no KEYLOAD; after success it issues KEYLOAD of a key whose byte K[i] is the
prepared byte Bi, for each i in 0..9. (40_key_material.md R107) -/
def Obligations.HostLoadsTheKeyOnlyAfterSuccess : Prop :=
  (∀ e : KeyError, keyloadFor (.error e) = none) ∧
  (∀ b : KeyBytes, ∃ k, keyloadFor (.ok b) = some (.keyload k) ∧ ∀ i : Fin 10, keyByte k i = b[i])

/-- Stepping instance n puts instance n at the next state its own step gives, removes and adds no instance, and leaves
instance m unchanged for every m other than n; stepping n then m gives what stepping m then n gives. Instances of
one build, as they are after reset, stay instances of that build. (Taking the edges of different instances one
after another is log entry 14, DESIGN CHOICE.) (10_state.md R34, 20_memory.md R66, 60_exceptions.md R212) -/
def Obligations.InstancesDoNotTouchEachOther : Prop :=
  (∀ (n : Nat) (es : Instances) (s t : State), es[n]? = some s → step s = .next t →
    (stepInstance n es)[n]? = some t) ∧
  (∀ (n : Nat) (es : Instances), (stepInstance n es).length = es.length) ∧
  (∀ (n m : Nat) (es : Instances), n ≠ m →
    (stepInstance n es)[m]? = es[m]? ∧
    stepInstance n (stepInstance m es) = stepInstance m (stepInstance n es)) ∧
  (∀ (c : Config) (n : Nat), (Instances.afterReset c n).ofBuild c) ∧
  (∀ (c : Config) (n : Nat) (es : Instances), es.ofBuild c → (stepInstance n es : Instances).ofBuild c)

/-- Two engines that differ at most in KEY without KEY_VALID, the datapath outside an operation, and the response
fields without RESP_VALID show the same outputs, and one edge keeps them so: if it takes one to a next state, it
takes the other to a next state that differs from it at most so, and it is refused for one exactly when it is for
the other, by the same name. That RESP_STATUS and RESP_DATA reach no port without RESP_VALID is the model's
reading of R29 (log entry 10, DEDUCED), and the refusal is log entry 6 (DESIGN CHOICE). (10_state.md R22, R25, R29
and R33, 93_implementation_defined.md U4 to U6) -/
def Obligations.StepsKeepTheUnspecifiedRegistersHidden : Prop :=
  ∀ s t : State, s.SameShown t →
    s.outputs = t.outputs ∧
    (∀ s', step s = .next s' → ∃ t', step t = .next t' ∧ s'.SameShown t') ∧
    (∀ r, step s = .refused r ↔ step t = .refused r)
end

