-- ==== Sys2Proof/Laws/Decode.lean ====
section
/-! SUPPORT. The fields of a command word and the encodings as numbers, so that questions about words are arithmetic. -/

namespace Sys2Proof

@[simp] theorem opField_toNat (w : CmdWord) : (opField w).toNat = w.toNat / 2 ^ 80 := by
  have h := w.isLt
  simp only [opField, BitVec.extractLsb'_toNat, Nat.shiftRight_eq_div_pow]
  omega

@[simp] theorem payloadField_toNat (w : CmdWord) : (payloadField w).toNat = w.toNat % 2 ^ 80 := by
  simp [payloadField, BitVec.extractLsb'_toNat]

@[simp] theorem rsvdField_toNat (w : CmdWord) : (rsvdField w).toNat = w.toNat / 2 ^ 32 % 2 ^ 48 := by
  simp [rsvdField, BitVec.extractLsb'_toNat, Nat.shiftRight_eq_div_pow]

@[simp] theorem dataField_toNat (w : CmdWord) : (dataField w).toNat = w.toNat % 2 ^ 32 := by
  simp [dataField, BitVec.extractLsb'_toNat]

/-- The word of a KEYLOAD as a number. -/
theorem encode_keyload_toNat (k : Key) : (encode (.keyload k)).toNat = 2 ^ 80 * 1 + k.toNat := by
  simp only [encode, BitVec.toNat_append, Nat.shiftLeft_eq]
  rw [Nat.mul_comm, ← Nat.two_pow_add_eq_or_of_lt k.isLt]
  simp

/-- The word of an ENC as a number. -/
theorem encode_enc_toNat (d : Word) : (encode (.enc d)).toNat = 2 ^ 80 * 2 + d.toNat := by
  simp only [encode, BitVec.toNat_append, Nat.shiftLeft_eq]
  rw [Nat.mul_comm, ← Nat.two_pow_add_eq_or_of_lt d.isLt]
  simp

/-- The word of a DEC as a number. -/
theorem encode_dec_toNat (d : Word) : (encode (.dec d)).toNat = 2 ^ 80 * 3 + d.toNat := by
  simp only [encode, BitVec.toNat_append, Nat.shiftLeft_eq]
  rw [Nat.mul_comm, ← Nat.two_pow_add_eq_or_of_lt d.isLt]
  simp

end Sys2Proof
end

