-- ==== Sys2Proof/Laws/Operands.lean ====
section
/-! SUPPORT. The small laws of splits and joins, of the S-box read and of the round steps. -/

namespace Sys2Proof.Machine

/-- Rejoining the halves of a word gives the word. -/
@[simp] theorem join_hi16_lo16 (x : Word) : join (hi16 x) (lo16 x) = x := by
  apply BitVec.eq_of_getLsbD_eq
  intro i hi
  simp only [join, hi16, lo16, BitVec.getLsbD_append, BitVec.getLsbD_extractLsb']
  by_cases h : i < 16
  · simp [h]
  · simp only [h, decide_false]
    have h1 : i - 16 < 16 := by omega
    simp [h1, show 16 + (i - 16) = i by omega]

/-- The upper half of a joined word. -/
@[simp] theorem hi16_join (a b : Half) : hi16 (join a b) = a := by
  apply BitVec.eq_of_getLsbD_eq
  intro i hi
  simp only [hi16, join, BitVec.getLsbD_extractLsb', BitVec.getLsbD_append]
  simp [hi]

/-- The lower half of a joined word. -/
@[simp] theorem lo16_join (a b : Half) : lo16 (join a b) = b := by
  apply BitVec.eq_of_getLsbD_eq
  intro i hi
  simp only [lo16, join, BitVec.getLsbD_extractLsb', BitVec.getLsbD_append]
  simp [hi]

/-- Rejoining the bytes of a half gives the half. -/
@[simp] theorem joinBytes_hb_lb (w : Half) : joinBytes (hb w) (lb w) = w := by
  apply BitVec.eq_of_getLsbD_eq
  intro i hi
  simp only [joinBytes, hb, lb, BitVec.getLsbD_append, BitVec.getLsbD_extractLsb']
  by_cases h : i < 8
  · simp [h]
  · simp only [h, decide_false]
    have h1 : i - 8 < 8 := by omega
    simp [h1, show 8 + (i - 8) = i by omega]

/-- The high byte of a joined half. -/
@[simp] theorem hb_joinBytes (a b : Byte) : hb (joinBytes a b) = a := by
  apply BitVec.eq_of_getLsbD_eq
  intro i hi
  simp only [hb, joinBytes, BitVec.getLsbD_extractLsb', BitVec.getLsbD_append]
  simp [hi]

/-- The low byte of a joined half. -/
@[simp] theorem lb_joinBytes (a b : Byte) : lb (joinBytes a b) = b := by
  apply BitVec.eq_of_getLsbD_eq
  intro i hi
  simp only [lb, joinBytes, BitVec.getLsbD_extractLsb', BitVec.getLsbD_append]
  simp [hi]

/-- Without rounds the halves stay. -/
@[simp] theorem forwardRounds_nil (c : Config) (k : Key) (h : Halves) : forwardRounds c k [] h = h := rfl

/-- One more forward round at the front of the list. -/
theorem forwardRounds_cons (c : Config) (k : Key) (r : Nat) (rs : List Nat) (h : Halves) :
    forwardRounds c k (r :: rs) h = forwardRounds c k rs (forwardRound c k r h) := rfl

/-- One more forward round at the end of the list. -/
theorem forwardRounds_concat (c : Config) (k : Key) (rs : List Nat) (r : Nat) (h : Halves) :
    forwardRounds c k (rs ++ [r]) h = forwardRound c k r (forwardRounds c k rs h) := by
  simp [forwardRounds]

/-- Without rounds the halves stay. -/
@[simp] theorem inverseRounds_nil (c : Config) (k : Key) (h : Halves) : inverseRounds c k [] h = h := rfl

/-- One more inverse round at the front of the list. -/
theorem inverseRounds_cons (c : Config) (k : Key) (r : Nat) (rs : List Nat) (h : Halves) :
    inverseRounds c k (r :: rs) h = inverseRounds c k rs (inverseRound c k r h) := rfl

/-- One more inverse round at the end of the list. -/
theorem inverseRounds_concat (c : Config) (k : Key) (rs : List Nat) (r : Nat) (h : Halves) :
    inverseRounds c k (rs ++ [r]) h = inverseRound c k r (inverseRounds c k rs h) := by
  simp [inverseRounds]

/-- The permutation check says that every byte value is an entry of the table. -/
theorem isPermutation_iff_mem (t : Vector Byte 256) : isPermutation t = true ↔ ∀ b : Byte, b ∈ t.toList := by
  simp only [isPermutation, List.all_eq_true, List.mem_range, List.any_eq_true, beq_iff_eq]
  constructor
  · intro h b
    obtain ⟨x, hx, hv⟩ := h b.toNat b.isLt
    rwa [← BitVec.eq_of_toNat_eq hv]
  · intro h v hv
    exact ⟨BitVec.ofNat 8 v, h _, by simp [BitVec.toNat_ofNat]; omega⟩

end Sys2Proof.Machine
end

