-- ==== Sys2Proof/Laws/State.lean ====
section
/-! SUPPORT. One lemma per field per update of State, each true by rfl, so that no proof unfolds a record update. -/

namespace Sys2Proof.Machine

variable (s : State)

@[simp] theorem State.respond_cfg (st : Status) (d : Word) : (s.respond st d).cfg = s.cfg := rfl
@[simp] theorem State.respond_key (st : Status) (d : Word) : (s.respond st d).key = s.key := rfl
@[simp] theorem State.respond_keyValid (st : Status) (d : Word) : (s.respond st d).keyValid = s.keyValid := rfl
@[simp] theorem State.respond_left (st : Status) (d : Word) : (s.respond st d).left = s.left := rfl
@[simp] theorem State.respond_right (st : Status) (d : Word) : (s.respond st d).right = s.right := rfl
@[simp] theorem State.respond_round (st : Status) (d : Word) : (s.respond st d).round = s.round := rfl
@[simp] theorem State.respond_dir (st : Status) (d : Word) : (s.respond st d).dir = s.dir := rfl
@[simp] theorem State.respond_busy (st : Status) (d : Word) : (s.respond st d).busy = s.busy := rfl
@[simp] theorem State.respond_respValid (st : Status) (d : Word) : (s.respond st d).respValid = true := rfl
@[simp] theorem State.respond_respStatus (st : Status) (d : Word) : (s.respond st d).respStatus = st := rfl
@[simp] theorem State.respond_respData (st : Status) (d : Word) : (s.respond st d).respData = d := rfl
@[simp] theorem State.respond_inputs (st : Status) (d : Word) : (s.respond st d).inputs = s.inputs := rfl

@[simp] theorem State.raiseError_cfg (e : EngineError) : (s.raiseError e).cfg = s.cfg := rfl
@[simp] theorem State.raiseError_key (e : EngineError) : (s.raiseError e).key = s.key := rfl
@[simp] theorem State.raiseError_keyValid (e : EngineError) : (s.raiseError e).keyValid = s.keyValid := rfl
@[simp] theorem State.raiseError_left (e : EngineError) : (s.raiseError e).left = s.left := rfl
@[simp] theorem State.raiseError_right (e : EngineError) : (s.raiseError e).right = s.right := rfl
@[simp] theorem State.raiseError_round (e : EngineError) : (s.raiseError e).round = s.round := rfl
@[simp] theorem State.raiseError_dir (e : EngineError) : (s.raiseError e).dir = s.dir := rfl
@[simp] theorem State.raiseError_busy (e : EngineError) : (s.raiseError e).busy = s.busy := rfl
@[simp] theorem State.raiseError_respValid (e : EngineError) : (s.raiseError e).respValid = true := rfl
@[simp] theorem State.raiseError_respStatus (e : EngineError) : (s.raiseError e).respStatus = e.status := rfl
@[simp] theorem State.raiseError_respData (e : EngineError) : (s.raiseError e).respData = 0 := rfl
@[simp] theorem State.raiseError_inputs (e : EngineError) : (s.raiseError e).inputs = s.inputs := rfl

@[simp] theorem State.takeResponse_cfg : (s.takeResponse).cfg = s.cfg := rfl
@[simp] theorem State.takeResponse_key : (s.takeResponse).key = s.key := rfl
@[simp] theorem State.takeResponse_keyValid : (s.takeResponse).keyValid = s.keyValid := rfl
@[simp] theorem State.takeResponse_left : (s.takeResponse).left = s.left := rfl
@[simp] theorem State.takeResponse_right : (s.takeResponse).right = s.right := rfl
@[simp] theorem State.takeResponse_round : (s.takeResponse).round = s.round := rfl
@[simp] theorem State.takeResponse_dir : (s.takeResponse).dir = s.dir := rfl
@[simp] theorem State.takeResponse_busy : (s.takeResponse).busy = s.busy := rfl
@[simp] theorem State.takeResponse_respValid : (s.takeResponse).respValid = false := rfl
@[simp] theorem State.takeResponse_respStatus : (s.takeResponse).respStatus = s.respStatus := rfl
@[simp] theorem State.takeResponse_respData : (s.takeResponse).respData = s.respData := rfl
@[simp] theorem State.takeResponse_inputs : (s.takeResponse).inputs = s.inputs := rfl

@[simp] theorem State.loadKey_cfg (k : Key) : (s.loadKey k).cfg = s.cfg := rfl
@[simp] theorem State.loadKey_key (k : Key) : (s.loadKey k).key = k := rfl
@[simp] theorem State.loadKey_keyValid (k : Key) : (s.loadKey k).keyValid = true := rfl
@[simp] theorem State.loadKey_left (k : Key) : (s.loadKey k).left = s.left := rfl
@[simp] theorem State.loadKey_right (k : Key) : (s.loadKey k).right = s.right := rfl
@[simp] theorem State.loadKey_round (k : Key) : (s.loadKey k).round = s.round := rfl
@[simp] theorem State.loadKey_dir (k : Key) : (s.loadKey k).dir = s.dir := rfl
@[simp] theorem State.loadKey_busy (k : Key) : (s.loadKey k).busy = s.busy := rfl
@[simp] theorem State.loadKey_respValid (k : Key) : (s.loadKey k).respValid = s.respValid := rfl
@[simp] theorem State.loadKey_respStatus (k : Key) : (s.loadKey k).respStatus = s.respStatus := rfl
@[simp] theorem State.loadKey_respData (k : Key) : (s.loadKey k).respData = s.respData := rfl
@[simp] theorem State.loadKey_inputs (k : Key) : (s.loadKey k).inputs = s.inputs := rfl

@[simp] theorem State.setHalves_cfg (h : Halves) : (s.setHalves h).cfg = s.cfg := rfl
@[simp] theorem State.setHalves_key (h : Halves) : (s.setHalves h).key = s.key := rfl
@[simp] theorem State.setHalves_keyValid (h : Halves) : (s.setHalves h).keyValid = s.keyValid := rfl
@[simp] theorem State.setHalves_left (h : Halves) : (s.setHalves h).left = h.left := rfl
@[simp] theorem State.setHalves_right (h : Halves) : (s.setHalves h).right = h.right := rfl
@[simp] theorem State.setHalves_round (h : Halves) : (s.setHalves h).round = s.round := rfl
@[simp] theorem State.setHalves_dir (h : Halves) : (s.setHalves h).dir = s.dir := rfl
@[simp] theorem State.setHalves_busy (h : Halves) : (s.setHalves h).busy = s.busy := rfl
@[simp] theorem State.setHalves_respValid (h : Halves) : (s.setHalves h).respValid = s.respValid := rfl
@[simp] theorem State.setHalves_respStatus (h : Halves) : (s.setHalves h).respStatus = s.respStatus := rfl
@[simp] theorem State.setHalves_respData (h : Halves) : (s.setHalves h).respData = s.respData := rfl
@[simp] theorem State.setHalves_inputs (h : Halves) : (s.setHalves h).inputs = s.inputs := rfl

@[simp] theorem State.startOperation_cfg (h : Halves) (r : BitVec 5) (dir : Dir) : (s.startOperation h r dir).cfg = s.cfg :=
    rfl
@[simp] theorem State.startOperation_key (h : Halves) (r : BitVec 5) (dir : Dir) : (s.startOperation h r dir).key = s.key :=
    rfl
@[simp] theorem State.startOperation_keyValid (h : Halves) (r : BitVec 5) (dir : Dir) : (s.startOperation h r dir).keyValid = s.keyValid :=
    rfl
@[simp] theorem State.startOperation_left (h : Halves) (r : BitVec 5) (dir : Dir) : (s.startOperation h r dir).left = h.left :=
    rfl
@[simp] theorem State.startOperation_right (h : Halves) (r : BitVec 5) (dir : Dir) : (s.startOperation h r dir).right = h.right :=
    rfl
@[simp] theorem State.startOperation_round (h : Halves) (r : BitVec 5) (dir : Dir) : (s.startOperation h r dir).round = r :=
    rfl
@[simp] theorem State.startOperation_dir (h : Halves) (r : BitVec 5) (dir : Dir) : (s.startOperation h r dir).dir = dir :=
    rfl
@[simp] theorem State.startOperation_busy (h : Halves) (r : BitVec 5) (dir : Dir) : (s.startOperation h r dir).busy = true :=
    rfl
@[simp] theorem State.startOperation_respValid (h : Halves) (r : BitVec 5) (dir : Dir) : (s.startOperation h r dir).respValid = s.respValid :=
    rfl
@[simp] theorem State.startOperation_respStatus (h : Halves) (r : BitVec 5) (dir : Dir) : (s.startOperation h r dir).respStatus = s.respStatus :=
    rfl
@[simp] theorem State.startOperation_respData (h : Halves) (r : BitVec 5) (dir : Dir) : (s.startOperation h r dir).respData = s.respData :=
    rfl
@[simp] theorem State.startOperation_inputs (h : Halves) (r : BitVec 5) (dir : Dir) : (s.startOperation h r dir).inputs = s.inputs :=
    rfl

@[simp] theorem State.setRound_cfg (r : BitVec 5) : (s.setRound r).cfg = s.cfg := rfl
@[simp] theorem State.setRound_key (r : BitVec 5) : (s.setRound r).key = s.key := rfl
@[simp] theorem State.setRound_keyValid (r : BitVec 5) : (s.setRound r).keyValid = s.keyValid := rfl
@[simp] theorem State.setRound_left (r : BitVec 5) : (s.setRound r).left = s.left := rfl
@[simp] theorem State.setRound_right (r : BitVec 5) : (s.setRound r).right = s.right := rfl
@[simp] theorem State.setRound_round (r : BitVec 5) : (s.setRound r).round = r := rfl
@[simp] theorem State.setRound_dir (r : BitVec 5) : (s.setRound r).dir = s.dir := rfl
@[simp] theorem State.setRound_busy (r : BitVec 5) : (s.setRound r).busy = s.busy := rfl
@[simp] theorem State.setRound_respValid (r : BitVec 5) : (s.setRound r).respValid = s.respValid := rfl
@[simp] theorem State.setRound_respStatus (r : BitVec 5) : (s.setRound r).respStatus = s.respStatus := rfl
@[simp] theorem State.setRound_respData (r : BitVec 5) : (s.setRound r).respData = s.respData := rfl
@[simp] theorem State.setRound_inputs (r : BitVec 5) : (s.setRound r).inputs = s.inputs := rfl

@[simp] theorem State.clearBusy_cfg : (s.clearBusy).cfg = s.cfg := rfl
@[simp] theorem State.clearBusy_key : (s.clearBusy).key = s.key := rfl
@[simp] theorem State.clearBusy_keyValid : (s.clearBusy).keyValid = s.keyValid := rfl
@[simp] theorem State.clearBusy_left : (s.clearBusy).left = s.left := rfl
@[simp] theorem State.clearBusy_right : (s.clearBusy).right = s.right := rfl
@[simp] theorem State.clearBusy_round : (s.clearBusy).round = s.round := rfl
@[simp] theorem State.clearBusy_dir : (s.clearBusy).dir = s.dir := rfl
@[simp] theorem State.clearBusy_busy : (s.clearBusy).busy = false := rfl
@[simp] theorem State.clearBusy_respValid : (s.clearBusy).respValid = s.respValid := rfl
@[simp] theorem State.clearBusy_respStatus : (s.clearBusy).respStatus = s.respStatus := rfl
@[simp] theorem State.clearBusy_respData : (s.clearBusy).respData = s.respData := rfl
@[simp] theorem State.clearBusy_inputs : (s.clearBusy).inputs = s.inputs := rfl

@[simp] theorem State.resetFlags_cfg : (s.resetFlags).cfg = s.cfg := rfl
@[simp] theorem State.resetFlags_key : (s.resetFlags).key = s.key := rfl
@[simp] theorem State.resetFlags_keyValid : (s.resetFlags).keyValid = false := rfl
@[simp] theorem State.resetFlags_left : (s.resetFlags).left = s.left := rfl
@[simp] theorem State.resetFlags_right : (s.resetFlags).right = s.right := rfl
@[simp] theorem State.resetFlags_round : (s.resetFlags).round = s.round := rfl
@[simp] theorem State.resetFlags_dir : (s.resetFlags).dir = s.dir := rfl
@[simp] theorem State.resetFlags_busy : (s.resetFlags).busy = false := rfl
@[simp] theorem State.resetFlags_respValid : (s.resetFlags).respValid = false := rfl
@[simp] theorem State.resetFlags_respStatus : (s.resetFlags).respStatus = s.respStatus := rfl
@[simp] theorem State.resetFlags_respData : (s.resetFlags).respData = s.respData := rfl
@[simp] theorem State.resetFlags_inputs : (s.resetFlags).inputs = s.inputs := rfl

@[simp] theorem State.afterEdge_cfg : (s.afterEdge).cfg = s.cfg := rfl
@[simp] theorem State.afterEdge_key : (s.afterEdge).key = s.key := rfl
@[simp] theorem State.afterEdge_keyValid : (s.afterEdge).keyValid = s.keyValid := rfl
@[simp] theorem State.afterEdge_left : (s.afterEdge).left = s.left := rfl
@[simp] theorem State.afterEdge_right : (s.afterEdge).right = s.right := rfl
@[simp] theorem State.afterEdge_round : (s.afterEdge).round = s.round := rfl
@[simp] theorem State.afterEdge_dir : (s.afterEdge).dir = s.dir := rfl
@[simp] theorem State.afterEdge_busy : (s.afterEdge).busy = s.busy := rfl
@[simp] theorem State.afterEdge_respValid : (s.afterEdge).respValid = s.respValid := rfl
@[simp] theorem State.afterEdge_respStatus : (s.afterEdge).respStatus = s.respStatus := rfl
@[simp] theorem State.afterEdge_respData : (s.afterEdge).respData = s.respData := rfl
@[simp] theorem State.afterEdge_inputs : (s.afterEdge).inputs = s.inputs.tail := rfl

@[simp] theorem State.offering_cfg (w : CmdWord) : (s.offering w).cfg = s.cfg := rfl
@[simp] theorem State.offering_key (w : CmdWord) : (s.offering w).key = s.key := rfl
@[simp] theorem State.offering_keyValid (w : CmdWord) : (s.offering w).keyValid = s.keyValid := rfl
@[simp] theorem State.offering_left (w : CmdWord) : (s.offering w).left = s.left := rfl
@[simp] theorem State.offering_right (w : CmdWord) : (s.offering w).right = s.right := rfl
@[simp] theorem State.offering_round (w : CmdWord) : (s.offering w).round = s.round := rfl
@[simp] theorem State.offering_dir (w : CmdWord) : (s.offering w).dir = s.dir := rfl
@[simp] theorem State.offering_busy (w : CmdWord) : (s.offering w).busy = false := rfl
@[simp] theorem State.offering_respValid (w : CmdWord) : (s.offering w).respValid = false := rfl
@[simp] theorem State.offering_respStatus (w : CmdWord) : (s.offering w).respStatus = s.respStatus := rfl
@[simp] theorem State.offering_respData (w : CmdWord) : (s.offering w).respData = s.respData := rfl
@[simp] theorem State.offering_inputs (w : CmdWord) : (s.offering w).inputs = offer w :: s.inputs.tail := rfl

@[simp] theorem State.halves_left : s.halves.left = s.left := rfl
@[simp] theorem State.halves_right : s.halves.right = s.right := rfl

/-- What offering a word makes of the engine: ready, with that word at its next edge. -/
@[simp] theorem State.offering_pins (w : CmdWord) : (s.offering w).pins = offer w := rfl

/-- An idle list of levels is an idle host. -/
theorem State.pins_of_no_inputs (h : s.inputs = []) : s.pins = Pins.idle := by
  simp [State.pins, h]

end Sys2Proof.Machine
end

