-- ==== Sys2Proof/Laws/Ops.lean ====
section
/-! SUPPORT. One lemma per shared operation that says everything it can do, for the proofs to cite. -/

namespace Sys2Proof.Machine

/-- A round step answers a next state exactly when ROUND is in range, and then it is `afterRound`. -/
theorem roundStep_next_iff (s t : State) : roundStep s = .next t ↔ s.round.toNat < Config.rounds ∧ t = s.afterRound := by
  unfold roundStep
  split
  · rename_i h
    simp [h, eq_comm]
  · rename_i h
    simp [h]

/-- A round step never faults. -/
theorem roundStep_not_fault (s : State) (f : Fault) : roundStep s ≠ .fault f := by
  unfold roundStep
  split <;> simp

/-- The only refusal of a round step, and when it comes. -/
theorem roundStep_refused_iff (s : State) (r : Refusal) :
    roundStep s = .refused r ↔ Config.rounds ≤ s.round.toNat ∧ r = .roundOutOfRange := by
  unfold roundStep
  split
  · rename_i h
    simp [Nat.not_le.mpr h]
  · rename_i h
    simp [Nat.le_of_not_lt h, eq_comm]

/-- The last round step: BUSY falls and the result is the response. -/
theorem afterRound_last (s : State) (h : s.lastRound = true) :
    s.afterRound = ((s.setHalves s.roundHalves).clearBusy).respond .ok (s.resultOf s.roundHalves) := by
  simp [State.afterRound, h]

/-- Any earlier round step: ROUND moves on. -/
theorem afterRound_not_last (s : State) (h : s.lastRound = false) :
    s.afterRound = (s.setHalves s.roundHalves).setRound s.nextRound := by
  simp [State.afterRound, h]

@[simp] theorem afterRound_cfg (s : State) : s.afterRound.cfg = s.cfg := by
  unfold State.afterRound
  split <;> simp

@[simp] theorem afterRound_key (s : State) : s.afterRound.key = s.key := by
  unfold State.afterRound
  split <;> simp

@[simp] theorem afterRound_keyValid (s : State) : s.afterRound.keyValid = s.keyValid := by
  unfold State.afterRound
  split <;> simp

@[simp] theorem afterRound_dir (s : State) : s.afterRound.dir = s.dir := by
  unfold State.afterRound
  split <;> simp

@[simp] theorem afterRound_inputs (s : State) : s.afterRound.inputs = s.inputs := by
  unfold State.afterRound
  split <;> simp

@[simp] theorem afterRound_halves (s : State) : s.afterRound.halves = s.roundHalves := by
  unfold State.afterRound
  split <;> rfl

/-- The key check with a key: the operation starts. -/
@[simp] theorem startOrNoKey_key (s : State) (h : Halves) (r : BitVec 5) (dir : Dir) (hk : s.keyValid = true) :
    startOrNoKey s h r dir = s.startOperation h r dir := by
  simp [startOrNoKey, hk]

/-- The key check without a key: NO_KEY. -/
@[simp] theorem startOrNoKey_noKey (s : State) (h : Halves) (r : BitVec 5) (dir : Dir) (hk : s.keyValid = false) :
    startOrNoKey s h r dir = s.raiseError .noKey := by
  simp [startOrNoKey, hk]

/-- What performing a command can do: it answers one of four next states. -/
theorem exec_next_cases (i : Instr) (s t : State) (h : exec i s = .next t) :
    (∃ k, i = .keyload k ∧ t = (s.loadKey k).respond .ok 0) ∨
    (s.keyValid = false ∧ ((∃ d, i = .enc d) ∨ ∃ d, i = .dec d) ∧ t = s.raiseError .noKey) ∨
    (s.keyValid = true ∧ ∃ d, i = .enc d ∧ t = s.startOperation (encIn s.cfg d) 0 .forward) ∨
    (s.keyValid = true ∧ ∃ d, i = .dec d ∧ t = s.startOperation (decIn d) 23 .inverse) := by
  cases i with
  | keyload k => exact .inl ⟨k, rfl, by simpa [exec, execKeyload] using h.symm⟩
  | enc d =>
    cases hk : s.keyValid
    · exact .inr (.inl ⟨rfl, .inl ⟨d, rfl⟩, by simpa [exec, execEnc, hk] using h.symm⟩)
    · exact .inr (.inr (.inl ⟨rfl, d, rfl, by simpa [exec, execEnc, hk] using h.symm⟩))
  | dec d =>
    cases hk : s.keyValid
    · exact .inr (.inl ⟨rfl, .inr ⟨d, rfl⟩, by simpa [exec, execDec, hk] using h.symm⟩)
    · exact .inr (.inr (.inr ⟨rfl, d, rfl, by simpa [exec, execDec, hk] using h.symm⟩))

/-- Performing a command never faults. -/
theorem exec_not_fault (i : Instr) (s : State) (f : Fault) : exec i s ≠ .fault f := by
  cases i <;> simp [exec, execKeyload, execEnc, execDec]

/-- Performing a command is never refused. -/
theorem exec_not_refused (i : Instr) (s : State) (r : Refusal) : exec i s ≠ .refused r := by
  cases i <;> simp [exec, execKeyload, execEnc, execDec]

end Sys2Proof.Machine
end

