-- ==== Sys2Proof/Laws/PerInstr.lean ====
section
/-! SUPPORT. Statements made per command: one lemma per constructor of Instr. -/

/-- The word of a command is legal by R77, read from the two cases of that rule and not from the decoder. -/
def Sys2Proof.Laws.EncodesLegalWord.Statement (i : Sys2Proof.Instr) : Prop :=
  Sys2Proof.legalWord (Sys2Proof.encode i) = true

namespace Sys2Proof.Laws.EncodesLegalWord

theorem keyload (k : Key) : Statement (.keyload k) := by
  have hk := k.isLt
  simp [Statement, legalWord, encode_keyload_toNat]
  omega

theorem enc (d : Word) : Statement (.enc d) := by
  have hd := d.isLt
  simp [Statement, legalWord, encode_enc_toNat]
  omega

theorem dec (d : Word) : Statement (.dec d) := by
  have hd := d.isLt
  simp [Statement, legalWord, encode_dec_toNat]
  omega

end Sys2Proof.Laws.EncodesLegalWord
end

