-- ==== Sys2Proof/Laws/Step.lean ====
section
/-! SUPPORT. What one edge can do, said once: the inversion lemma every invariant goes through. -/

namespace Sys2Proof.Machine

/-- The state an accepted command word leaves, for every word: of a command its own next state, of an illegal word the
error response. -/
theorem accept_next_cases (w : CmdWord) (s t : State) (h : accept w s = .next t) :
    (∃ i, decode w = .ok i ∧ exec i s = .next t) ∨
    ((∃ e, decode w = .error e) ∧ t = s.raiseError .illegalCmd) := by
  unfold accept at h
  split at h
  · exact .inl ⟨_, ‹_›, h⟩
  · exact .inr ⟨⟨_, ‹_›⟩, by simpa [acceptIllegal] using h.symm⟩

/-- Accepting a word always answers a next state. -/
theorem accept_answers (w : CmdWord) (s : State) : ∃ t, accept w s = .next t := by
  unfold accept
  split
  · rename_i i _
    cases i <;> exact ⟨_, rfl⟩
  · exact ⟨_, rfl⟩

/-- The six things an edge can do, each with its guard and its next state. -/
theorem step_next_cases (s t : State) (h : step s = .next t) :
    (s.pins.rst = true ∧ t = s.afterEdge.resetFlags) ∨
    (s.pins.rst = false ∧ s.busy = true ∧ s.round.toNat < Config.rounds ∧ t = s.afterEdge.afterRound) ∨
    (s.pins.rst = false ∧ s.busy = false ∧ s.respValid = true ∧ s.pins.rspReady = true ∧
      t = s.afterEdge.takeResponse) ∨
    (s.pins.rst = false ∧ s.busy = false ∧ s.respValid = true ∧ s.pins.rspReady = false ∧ t = s.afterEdge) ∨
    (s.pins.rst = false ∧ s.busy = false ∧ s.respValid = false ∧ s.pins.cmdValid = true ∧
      accept s.pins.cmdWord s.afterEdge = .next t) ∨
    (s.pins.rst = false ∧ s.busy = false ∧ s.respValid = false ∧ s.pins.cmdValid = false ∧ t = s.afterEdge) := by
  unfold step edge at h
  cases hr : s.pins.rst
  · cases hb : s.busy
    · cases hv : s.respValid
      · cases hc : s.pins.cmdValid
        · simp [hr, hb, hv, hc] at h
          simp [h]
        · simp [hr, hb, hv, hc] at h
          simp [h]
      · cases hp : s.pins.rspReady
        · simp [hr, hb, hv, hp] at h
          simp [h]
        · simp [hr, hb, hv, hp] at h
          simp [h]
    · simp [hr, hb] at h
      rw [roundStep_next_iff] at h
      simpa using h
  · simp [hr] at h
    simp [h]

end Sys2Proof.Machine
end

