-- ==== Sys2Proof/Laws/Run.lean ====
section
/-! SUPPORT. Small laws of acceptance, of the host's levels along a run, and of runs put together. -/

namespace Sys2Proof.Machine

/-- When a word is accepted, and which. -/
theorem acceptedWord_eq_some (s : State) (w : CmdWord) :
    s.acceptedWord = some w ↔
      s.pins.rst = false ∧ s.busy = false ∧ s.respValid = false ∧ s.pins.cmdValid = true ∧ s.pins.cmdWord = w := by
  simp [State.acceptedWord, State.cmdReady, and_assoc]

/-- An edge at which an idle engine accepts nothing leaves it idle, takes no response and uses up one set of levels. -/
theorem step_of_idle_of_none (s : State) (hb : s.busy = false) (hv : s.respValid = false)
    (ha : s.acceptedWord = none) :
    s.takenResponse = none ∧
      ∃ t, step s = .next t ∧ t.busy = false ∧ t.respValid = false ∧ t.inputs = s.inputs.tail := by
  refine ⟨by simp [State.takenResponse, hv], ?_⟩
  cases hr : s.pins.rst
  · have hc : s.pins.cmdValid = false := by simpa [State.acceptedWord, State.cmdReady, hr, hb, hv] using ha
    exact ⟨s.afterEdge, by simp [step, edge, hr, hb, hv, hc], hb, hv, rfl⟩
  · exact ⟨s.afterEdge.resetFlags, by simp [step, edge, hr], rfl, rfl, rfl⟩

/-- A step uses up one set of levels. -/
theorem step_inputs (s t : State) (h : step s = .next t) : t.inputs = s.inputs.tail := by
  rcases step_next_cases s t h with ⟨_, rfl⟩ | ⟨_, _, _, rfl⟩ | ⟨_, _, _, _, rfl⟩ | ⟨_, _, _, _, rfl⟩ |
    ⟨_, _, _, _, h⟩ | ⟨_, _, _, _, rfl⟩ <;> try simp
  rcases accept_next_cases _ _ _ h with ⟨i, _, h⟩ | ⟨_, rfl⟩
  · rcases exec_next_cases i _ t h with ⟨k, rfl, rfl⟩ | ⟨_, _, rfl⟩ | ⟨_, d, rfl, rfl⟩ | ⟨_, d, rfl, rfl⟩ <;> simp
  · simp

/-- Without a reset in the list, the next edge is no reset edge. -/
theorem noReset_pins (s : State) (h : s.noReset = true) : s.pins.rst = false := by
  rcases hi : s.inputs with _ | ⟨p, ps⟩
  · simp [State.pins, hi, Pins.idle]
  · simp [State.noReset, hi] at h
    simp [State.pins, hi, h]

/-- Without a reset in the list, there is none in its rest. -/
theorem noReset_of_tail (s t : State) (h : s.noReset = true) (e : t.inputs = s.inputs.tail) : t.noReset = true := by
  simp only [State.noReset, e, List.all_eq_true] at *
  exact fun p hp => h p (List.mem_of_mem_tail hp)

/-- One edge, then the rest of a run. -/
theorem steps_succ_of_step (n : Nat) (s t : State) (h : step s = .next t) : steps (n + 1) s = steps n t := by
  simp [steps, h]

/-- A run of n edges and one of m edges make a run of n + m: its end, its accepted words and its taken responses. -/
theorem run_append (n m : Nat) (s t : State) (h : steps n s = .next t) :
    steps (n + m) s = steps m t ∧ acceptedWords (n + m) s = acceptedWords n s ++ acceptedWords m t ∧
      takenResponses (n + m) s = takenResponses n s ++ takenResponses m t := by
  induction n generalizing s with
  | zero =>
    simp only [steps, Host.Outcome.next.injEq] at h
    subst h
    simp [acceptedWords, takenResponses]
  | succ n ih =>
    simp only [steps] at h
    split at h
    · rename_i u hu
      rw [Nat.succ_add]
      simp [acceptedWords, takenResponses, steps, hu, ih u h]
    · simp at h
    · simp at h

end Sys2Proof.Machine
end

