-- ==== Sys2Proof/Tests/Slice0.lean ====
section
/-! SUPPORT. Tests with expected values from the spec's own vectors (spec/95_test_vectors.md), the checks' refusals, and
for every statement with hypotheses a witness that meets them. -/

namespace Sys2Proof.Tests

open Sys2Proof.Machine

/-- The key KA of the spec's vectors. -/
def keyA : Key := 0x1234567890abcdef0123

/-- The key KB of the spec's vectors. -/
def keyB : Key := 0x00998877665544332211

/-- The default S-box under the other round form. -/
def refConfig : Config := { roundForm := .skip32Ref, sbox := defaultSbox }

/-- A table that is no permutation: every entry is 0. -/
def flatConfig : Config := { roundForm := .doc, sbox := Vector.replicate 256 0 }

/-- The engine after reset with KA loaded. -/
def keyed (c : Config) : State := (State.afterReset c).loadKey keyA

/-- An engine in the middle of an operation, at round `r`, with the given halves. -/
def running (c : Config) (l rt : Half) (r : BitVec 5) (dir : Dir) : State := (keyed c).startOperation ⟨l, rt⟩ r dir

/-- An engine with a response waiting. -/
def waiting : State := (keyed defaultConfig).respond .ok 0x05931d86

/-- The same engine with one set of host levels for the next edge. -/
def withPins (s : State) (p : Pins) : State := { s with inputs := [p] }

/-- The levels of an edge with rst = 1. -/
def resetPins : Pins := { rst := true, cmdValid := false, cmdWord := 0, rspReady := false }

/-- Does a step answer a next state with this property? -/
def answersWith (o : Host.Outcome State Fault Refusal) (p : State → Bool) : Bool :=
  match o with
  | .next t => p t
  | .fault _ => false
  | .refused _ => false

/-! ## Words (30_encoding.md R84 and V-DEC) -/

theorem test_decode_keyload : decode 0x11234567890abcdef0123 = .ok (.keyload 0x1234567890abcdef0123) := by decide
theorem test_decode_enc_bits :
    decode 0b001000000000000000000000000000000000000000000000000011111111111111111111111111111111 =
      .ok (.enc 0xffffffff) := by decide
theorem test_decode_dec : decode 0x3000000000000819d5f1f = .ok (.dec 0x819d5f1f) := by decide
theorem test_decode_zero_word : decode 0 = .error (.reservedOp 0) := by decide
theorem test_decode_op4 : decode 0x400000000000000000000 = .error (.reservedOp 4) := by decide
theorem test_decode_all_ones : decode 0xfffffffffffffffffffff = .error (.reservedOp 15) := by decide
theorem test_decode_rsvd_bit32 : decode 0x200000000000100000000 = .error (.rsvdNotZero 2 1) := by decide
theorem test_decode_rsvd_bit79 : decode 0x380000000000000000000 = .error (.rsvdNotZero 3 0x800000000000) := by decide
theorem test_encode_keyload : encode (.keyload 0x00998877665544332211) = 0x100998877665544332211 := by decide
theorem test_encode_enc : encode (.enc 0x80000000) = 0x200000000000080000000 := by decide
theorem test_encode_dec : encode (.dec 0x276ee6e4) = 0x3000000000000276ee6e4 := by decide
theorem test_table_word : decodeTableWord 88 0x300000000000005931d86 = some (.dec 0x05931d86) := by decide
theorem test_table_word_too_wide : decodeTableWord 88 0xf100000000000000000000 = none := by decide

/-! ## The checks refuse what is ill-formed (R77, R124) -/

theorem test_illegal_op0 : legalWord 0x000000000000000000000 = false := by decide
theorem test_illegal_op4 : legalWord 0x400000000000000000000 = false := by decide
theorem test_illegal_opF : legalWord 0xf00000000000000000000 = false := by decide
theorem test_illegal_enc_rsvd : legalWord 0x200000000000100000000 = false := by decide
theorem test_illegal_dec_rsvd : legalWord 0x380000000000000000000 = false := by decide
theorem test_legal_keyload : legalWord 0x1ffffffffffffffffffff = true := by decide
theorem test_wellFormed_all : ([.keyload 0, .enc 0xffffffff, .dec 0] : List Instr).all Instr.wellFormed = true := by decide
theorem test_flat_sbox_refused : flatConfig.legal = false := by decide +kernel
theorem test_default_sbox_legal : defaultConfig.legal = true := by decide +kernel

/-! ## Datapath (V-SBOX, V-G, V-RND, V-ENC, V-REF-1, V-KEY-3) -/

theorem test_sbox_corners :
    ([0x00, 0x01, 0x0b, 0x12, 0x79, 0x7f, 0x80, 0xbd, 0xfe, 0xff] : List Byte).map (sboxRead defaultConfig) =
      [0xa3, 0xd7, 0x78, 0x4d, 0xeb, 0x1d, 0x42, 0x3e, 0x2a, 0x46] := by decide +kernel
theorem test_g1 : gBox defaultConfig keyA 0x0000 0 = 0x7393 := by decide +kernel
theorem test_g2 : gBox defaultConfig keyA 0xffff 23 = 0x15ec := by decide +kernel
theorem test_g3 : gBox defaultConfig keyA 0x1234 2 = 0x74d7 := by decide +kernel
theorem test_forward_round_ref : forwardRound refConfig keyA 5 ⟨0x1234, 0x5678⟩ = ⟨0x5678, 0x193e⟩ := by decide +kernel
theorem test_inverse_round_doc : inverseRound defaultConfig keyA 23 ⟨0x0593, 0x1d86⟩ = ⟨0xd43c, 0x0593⟩ := by
  decide +kernel
theorem test_enc_doc_key_order : feistelEnc defaultConfig 0x00010203040506070809 0 = 0x79d928c8 := by decide +kernel
theorem test_dec_doc : feistelDec defaultConfig keyA 0x12345678 = 0xb0cc2cfe := by decide +kernel
theorem test_enc_reference_vector : feistelEnc refConfig keyB 0x33221100 = 0x819d5f1f := by decide +kernel
theorem test_dec_ref : feistelDec refConfig keyA 0x80000000 = 0xe2186203 := by decide +kernel

/-! ## Commands and edges (V-ERR, V-TRACE, V-TIME) -/

theorem test_keyload : answersWith (step ((State.afterReset defaultConfig).offering 0x11234567890abcdef0123))
    (fun t => t.key == keyA && t.keyValid && t.respValid && t.respStatus == .ok && t.respData == 0 && !t.busy) = true := by
  decide
theorem test_enc_loads_halves_ref : answersWith (step ((keyed refConfig).offering 0x200000000000033221100))
    (fun t => t.left == 0x1100 && t.right == 0x3322 && t.round == 0 && t.dir == .forward && t.busy && !t.respValid) = true := by
  decide
theorem test_enc_no_key : answersWith (step (State.reset.withFetchWord 88 0x200000000000012345678))
    (fun t => t.respValid && t.respStatus == .noKey && t.respData == 0 && !t.busy && !t.keyValid) = true := by
  decide
theorem test_dec_loads_halves : answersWith (step ((keyed defaultConfig).offering 0x300000000000005931d86))
    (fun t => t.left == 0x0593 && t.right == 0x1d86 && t.round == 23 && t.dir == .inverse && t.busy) = true := by
  decide
theorem test_dec_no_key : answersWith (step (State.reset.withFetchWord 88 0x300000000000000000000))
    (fun t => t.respValid && t.respStatus == .noKey && !t.busy) = true := by
  decide
theorem test_illegal_beats_no_key : answersWith (step (State.reset.offering 0x200000000000100000000))
    (fun t => t.respValid && t.respStatus == .illegalCmd && t.respData == 0 && !t.busy) = true := by
  decide
theorem test_last_round_answers : answersWith (step (running defaultConfig 0xd43c 0x0593 23 .forward))
    (fun t => t.respValid && t.respStatus == .ok && t.respData == 0x05931d86 && t.round == 23 && !t.busy) = true := by
  decide +kernel
theorem test_inner_round_moves_on : answersWith (step (running defaultConfig 0x7393 0x27e5 2 .forward))
    (fun t => t.left == 0x27e5 && t.right == 0x27cc && t.round == 3 && t.busy && !t.respValid) = true := by
  decide +kernel
theorem test_reset_edge : answersWith (step (withPins (running defaultConfig 1 2 5 .forward) resetPins))
    (fun t => !t.keyValid && !t.busy && !t.respValid && t.left == 1) = true := by
  decide
theorem test_response_held : answersWith (step (withPins waiting (offer 0x100000000000000000000)))
    (fun t => t.respValid && t.respData == 0x05931d86 && t.key == keyA) = true := by
  decide
theorem test_response_taken : answersWith (step (withPins waiting takePins)) (fun t => !t.respValid) = true := by decide
theorem test_response_word : waiting.outputs.rspWord = some 0x005931d86 := by decide
theorem test_no_response_word : (keyed defaultConfig).outputs.rspWord = none := by decide
theorem test_answers_p2 : answers defaultConfig ⟨0, false⟩ [0x200000000000012345678, 0, 0x100000000000000000000] =
    [(.noKey, 0), (.illegalCmd, 0), (.ok, 0)] := by decide

/-! ## Host key preparation (V-HOST) and assembler lines (R84) -/

/-- The bytes of KA. -/
def bytesA : KeyBytes := #v[0x12, 0x34, 0x56, 0x78, 0x90, 0xab, 0xcd, 0xef, 0x01, 0x23]

theorem test_host_hex_empty : keyFromString (some "") .hexString = .error .nullArgument := by decide
theorem test_host_hex_upper : keyFromString (some "1234567890ABCDEF0123") .hexString = .ok bytesA := by decide
theorem test_host_hex_odd : keyFromString (some "123") .hexString = .error .formatError := by decide
theorem test_host_hex_short : keyFromString (some "12345678") .hexString = .error .invalidLength := by decide
theorem test_host_hex_prefix : keyFromString (some "0x1234567890abcdef01") .hexString = .error .formatError := by decide
theorem test_host_b64 : keyFromString (some "EjRWeJCrze8BIw==") .base64 = .ok bytesA := by decide
theorem test_host_b64_leftover_bits : keyFromString (some "EjRWeJCrze8BIx==") .base64 = .ok bytesA := by decide
theorem test_host_b64_three_pads : keyFromString (some "EjRWeJCrze8BI===") .base64 = .error .formatError := by decide
theorem test_host_b64_inner_pad : keyFromString (some "EjRWeJCrze8B=w==") .base64 = .error .formatError := by decide
theorem test_host_b64_length : keyFromString (some "EjRWeJCrze8BIw=") .base64 = .error .formatError := by decide
theorem test_host_b64_short : keyFromString (some "AAAA") .base64 = .error .invalidLength := by decide
theorem test_host_bytes_empty : keyFromBytes (some []) = .error .invalidLength := by decide
theorem test_host_pack : packKey bytesA = keyA := by decide
theorem test_host_no_keyload : keyloadFor (keyFromString (some "123") .hexString) = none := by decide
theorem test_asm_keyload : assembleLine "KEYLOAD 0x1234567890abcdef0123" = .word 0x11234567890abcdef0123 := by decide
theorem test_asm_enc_signed : assembleLine "ENC -1 ; int32 -1" = .word 0x2000000000000ffffffff := by decide
theorem test_asm_dec_min : assembleLine "DEC -2147483648" = .word 0x300000000000080000000 := by decide
theorem test_asm_cmd : assembleLine ".cmd 0x200000000000100000000" = .word 0x200000000000100000000 := by decide
theorem test_asm_comment : assembleLine "; P1" = .blank := by decide
theorem test_asm_short_key : assembleLine "KEYLOAD 0x1234" = .malformed := by decide

/-! ## Witnesses: for each statement with hypotheses, operands that meet them all -/

/-- A ready engine of the default build, with KA, offered the word. -/
def ready (w : CmdWord) : State := (keyed defaultConfig).offering w

theorem witness_EncodeOfDecodedWordGivesTheWord : ∃ w i, decode w = .ok i := ⟨0x2000000000000ffffffff, .enc 0xffffffff, by decide⟩

theorem witness_EveryWordDecodesByItsFields :
    (0x1ffffffffffffffffffff : CmdWord).extractLsb' 80 4 = 1 ∧
    ((0x2000000000000ffffffff : CmdWord).extractLsb' 80 4 = 2 ∧ (0x2000000000000ffffffff : CmdWord).extractLsb' 32 48 = 0) ∧
    ((0x300000000000000000000 : CmdWord).extractLsb' 80 4 = 3 ∧ (0x300000000000000000000 : CmdWord).extractLsb' 32 48 = 0) ∧
    ¬ ((0x200000000000100000000 : CmdWord).extractLsb' 80 4 = 1 ∨
      (((0x200000000000100000000 : CmdWord).extractLsb' 80 4 = 2 ∨ (0x200000000000100000000 : CmdWord).extractLsb' 80 4 = 3) ∧
        (0x200000000000100000000 : CmdWord).extractLsb' 32 48 = 0)) := by decide

theorem witness_ExactlyTheLegalWordsAreCommands : ∃ w, legalWord w = false := ⟨0x400000000000000000000, by decide⟩

theorem witness_KeyBytesAreMostSignificantFirst : ∃ k k' : Key, ∀ i : Fin 10, keyByte k i = keyByte k' i :=
  ⟨keyA, 0x1234567890abcdef0123, by decide⟩

theorem witness_KeyScheduleHasPeriodFive : ∃ r0 r1 r2 r3 r4 : Nat, (r0 < 24 ∧ r0 % 5 = 0) ∧ (r1 < 24 ∧ r1 % 5 = 1) ∧
    (r2 < 24 ∧ r2 % 5 = 2) ∧ (r3 < 24 ∧ r3 % 5 = 3 ∧ ¬ r3 + 5 < 24) ∧ (r4 < 24 ∧ r4 % 5 = 4) ∧ 18 + 5 < 24 :=
  ⟨0, 21, 22, 23, 19, by decide⟩

theorem witness_RoundStepsFollowTheirFormulas :
    (23 : Nat) < 24 ∧ defaultConfig.roundForm = .doc ∧ refConfig.roundForm = .skip32Ref := by decide

theorem witness_HalfMappingsFollowTheirFormulas :
    defaultConfig.roundForm = .doc ∧ refConfig.roundForm = .skip32Ref := by decide

theorem witness_ReferenceFormIsThePublishedCipher : refConfig.roundForm = .skip32Ref := rfl

theorem witness_EqualKeyBytesMakeDecryptASwappedEncrypt :
    (∀ i : Fin 10, keyByte 0xffffffffffffffffffff i = 0xff) ∧ defaultConfig.roundForm = .doc := by decide

theorem witness_KeyloadLoadsTheKeyAndAnswersOk :
    (running defaultConfig 0 0 0 .forward).busy = true ∧ waiting.respValid = true := by decide

theorem witness_EncWithAKeyStartsTheForwardRounds :
    ((keyed defaultConfig).keyValid = true ∧ (keyed defaultConfig).cfg.roundForm = .doc) ∧
    ((keyed refConfig).keyValid = true ∧ (keyed refConfig).cfg.roundForm = .skip32Ref) := by decide

theorem witness_DecWithAKeyStartsTheInverseRounds : (keyed refConfig).keyValid = true := by decide

theorem witness_EncAndDecWithoutAKeyAnswerNoKey : State.reset.keyValid = false := rfl

theorem witness_KeyloadFrame : ∃ t, exec (.keyload 0xffffffffffffffffffff) State.reset = .next t := ⟨_, rfl⟩

theorem witness_CipherCommandFrame :
    (∃ t, exec (.enc 0x80000000) (keyed defaultConfig) = .next t ∧ (keyed defaultConfig).keyValid = true) ∧
    (∃ t, exec (.dec 0x7fffffff) State.reset = .next t ∧ State.reset.keyValid = false) := ⟨⟨_, rfl, rfl⟩, ⟨_, rfl, rfl⟩⟩

theorem witness_RepeatedKeyloadKeepsOnlyTheLastKey :
    ((keyed refConfig).busy = false ∧ (keyed refConfig).respValid = false) ∧
    ∃ t u, exec (.keyload keyA) State.reset = .next t ∧ exec (.keyload keyB) t.takeResponse = .next u :=
  ⟨by decide, _, _, rfl, rfl⟩

theorem witness_StepRunsTheDecodedCommand :
    ((ready 0x2000000000000ffffffff).cmdReady = true ∧ (ready 0x2000000000000ffffffff).pins.cmdValid = true ∧
      decode (ready 0x2000000000000ffffffff).pins.cmdWord = .ok (.enc 0xffffffff)) ∧
    decodeTableWord 88 0x100000000000000000000 = some (.keyload 0) := by decide

theorem witness_IllegalWordIsAnsweredWithIllegalCmd :
    (ready 0xf00000000000000000000).cmdReady = true ∧ (ready 0xf00000000000000000000).pins.cmdValid = true ∧
      decode (ready 0xf00000000000000000000).pins.cmdWord = .error (.reservedOp 15) := by decide

/-- A busy engine at a reset edge, with the given levels at the edges after it. -/
def resetThen (ps : List Pins) : State := { running defaultConfig 1 2 5 .forward with inputs := resetPins :: ps }

theorem witness_ResetEdgeClearsTheThreeFlagsOnly :
    (∃ t, (resetThen [resetPins]).pins.rst = true ∧ step (resetThen [resetPins]) = .next t ∧ t.pins.rst = true) ∧
    (resetThen [Pins.idle, resetPins, offer 0]).pins.rst = true ∧
    (∀ p ∈ (resetThen [Pins.idle, resetPins, offer 0]).inputs.tail.take 2, p.rst = true ∨ p.cmdValid = false) ∧
    ∃ u, steps 3 (resetThen [Pins.idle, resetPins, offer 0]) = .next u ∧ u.pins.rst = false ∧ u.pins.cmdValid = true :=
  ⟨⟨_, rfl, rfl, rfl⟩, rfl, by decide, _, rfl, rfl, rfl⟩

theorem witness_ResetAbortsTheOperationForGood :
    ∃ t, (resetThen [takePins, resetPins, offer 0]).pins.rst = true ∧
      step (resetThen [takePins, resetPins, offer 0]) = .next t ∧ acceptedWords 2 t = [] ∧ acceptedWords 3 t = [0] :=
  ⟨_, rfl, rfl, rfl, rfl⟩

theorem witness_ResponseStaysOfferedUntilTaken :
    (waiting.busy = false ∧ (withPins waiting takePins).pins.rst = false ∧ waiting.respValid = true ∧
      (withPins waiting takePins).pins.rspReady = true ∧ waiting.pins.rspReady = false ∧ waiting.pins.rst = false) ∧
    ((keyed defaultConfig).busy = false ∧ (keyed defaultConfig).pins.rst = false ∧
      (keyed defaultConfig).respValid = false ∧ (keyed defaultConfig).pins.cmdValid = false) := by decide

theorem witness_CommandIsAcceptedExactlyWhenReady :
    ((ready 0).cmdReady = true ∧ (ready 0).pins.cmdValid = true) ∧ waiting.cmdReady = false := by decide

theorem witness_BusyEdgeMakesOneRoundStep_forward :
    (running defaultConfig 0 0 23 .forward).pins.rst = false ∧ (running defaultConfig 0 0 23 .forward).busy = true ∧
    (running defaultConfig 0 0 23 .forward).round.toNat < 24 ∧ (running defaultConfig 0 0 23 .forward).dir = .forward ∧
    (running defaultConfig 0 0 23 .forward).round = 23 ∧ (running defaultConfig 0 0 0 .forward).round ≠ 23 := by decide

theorem witness_BusyEdgeMakesOneRoundStep_inverse :
    (running defaultConfig 0 0 0 .inverse).pins.rst = false ∧ (running defaultConfig 0 0 0 .inverse).busy = true ∧
    (running defaultConfig 0 0 0 .inverse).round.toNat < 24 ∧ (running defaultConfig 0 0 0 .inverse).dir = .inverse ∧
    (running defaultConfig 0 0 0 .inverse).round = 0 ∧ (running defaultConfig 0 0 23 .inverse).round ≠ 0 := by decide

theorem witness_RoundOutOfRangeIsTheOnlyStop :
    step (running defaultConfig 0 0 24 .forward) = .refused .roundOutOfRange := by rfl

theorem running_inv (r : BitVec 5) (h : r.toNat < 24) : (running defaultConfig 0 0 r .forward).Inv :=
  ⟨fun _ => rfl, fun _ => rfl, fun _ => h, by simp [running, keyed, State.afterReset],
    by simp [running, keyed, State.afterReset]⟩

theorem witness_EveryStepKeepsTheInvariant :
    ∃ t, (running defaultConfig 0 0 22 .forward).Inv ∧ step (running defaultConfig 0 0 22 .forward) = .next t :=
  ⟨_, running_inv 22 (by decide), rfl⟩

theorem witness_RunsFromTheInvariantNeverStop : (running defaultConfig 0 0 23 .forward).Inv := running_inv 23 (by decide)

theorem witness_SboxAndRoundFormAreNeverWritten : ∃ t, step (ready 0x100000000000000000000) = .next t := ⟨_, rfl⟩

theorem witness_OnlyAnAcceptedKeyloadWritesKey :
    (∃ t, step (ready 0x100000000000000000000) = .next t) ∧
    (ready 0x100000000000000000000).acceptedWord = some 0x100000000000000000000 ∧
    decode 0x100000000000000000000 = .ok (.keyload 0) ∧
    (∃ t, step waiting = .next t) ∧ waiting.acceptedWord = none := ⟨⟨_, rfl⟩, by decide, by decide, ⟨_, rfl⟩, by decide⟩

theorem witness_KeyValidIsSetByKeyloadAndClearedByReset :
    (∃ t, step (withPins (keyed defaultConfig) resetPins) = .next t ∧
      (withPins (keyed defaultConfig) resetPins).keyValid = true ∧ t.keyValid = false) ∧
    (∃ t, step (State.reset.offering 0x100000000000000000000) = .next t ∧ State.reset.keyValid = false ∧
      t.keyValid = true) ∧
    ((State.reset.offering 0x300000000000000000000).acceptedWord = some 0x300000000000000000000 ∧
      decode 0x300000000000000000000 = .ok (.dec 0)) := ⟨⟨_, rfl, rfl, rfl⟩, ⟨_, rfl, rfl, rfl⟩, by decide, by decide⟩

/-- A state no run reaches: a waiting response with the reserved code. -/
def reservedWaiting : State := State.reset.respond .reserved 0

theorem witness_ReservedStatusIsNeverProduced :
    (∃ t, step reservedWaiting = .next t ∧ t.respStatus = .reserved) ∧
    (State.reset.respValid = false ∧ waiting.respValid = true ∧ waiting.respStatus ≠ .reserved) ∧
    (running defaultConfig 0 0 0 .forward).Inv ∧
    reservedWaiting.respValid = true ∧ reservedWaiting.respStatus = .reserved :=
  ⟨⟨_, rfl, rfl⟩, ⟨rfl, rfl, by decide⟩, running_inv 0 (by decide), rfl, rfl⟩

/-- Two engines after reset that differ in every unspecified register the engine holds. -/
def otherReset : State :=
  { State.reset with
    key := ~~~State.reset.key, left := ~~~State.reset.left, right := ~~~State.reset.right,
    round := ~~~State.reset.round, respData := ~~~State.reset.respData }

theorem witness_UnspecifiedRegistersNeverReachAnOutput :
    State.reset.cfg = otherReset.cfg ∧ State.reset.inputs = otherReset.inputs ∧ State.reset.flagsClear = true ∧
    otherReset.flagsClear = true ∧ State.reset.SameShown otherReset :=
  ⟨rfl, rfl, rfl, rfl, rfl, rfl, rfl, rfl, rfl, by simp [State.reset, State.afterReset],
    by simp [State.reset, State.afterReset], by simp [State.reset, State.afterReset],
    by simp [State.reset, State.afterReset], by simp [State.reset, State.afterReset],
    by simp [State.reset, State.afterReset]⟩

theorem witness_EdgesMeetTheTransactionLevel :
    ((ready 0x200000000000000000000).acceptedWord = some 0x200000000000000000000 ∧
      (ready 0x200000000000000000000).noReset = true ∧
      latency (ready 0x200000000000000000000).keyState 0x200000000000000000000 = 24) ∧
    ((ready 0).acceptedWord = some 0 ∧ (ready 0).noReset = true ∧ latency (ready 0).keyState 0 = 0) := by decide

theorem witness_CipherLatencyIsConstant :
    (ready 0x300000000000080000000).acceptedWord = some 0x300000000000080000000 ∧
    (ready 0x300000000000080000000).keyValid = true ∧ (ready 0x300000000000080000000).noReset = true ∧
    decode 0x300000000000080000000 = .ok (.dec 0x80000000) ∧ (1 ≤ 24 ∧ 24 ≤ 1 + Config.pLat) := by decide

theorem witness_ResponsesAnswerTheCommandsInOrder :
    (ready 0x100000000000000000000).busy = false ∧ (ready 0x100000000000000000000).respValid = false ∧
    (ready 0x100000000000000000000).noReset = true ∧ acceptedWords 1 (ready 0x100000000000000000000) ≠ [] := by decide

/-- An idle engine whose host issues a command without a key, an illegal word, KEYLOAD and ENC at the fastest rate. -/
def issuing : State :=
  { State.reset with
    inputs := issueAll State.reset.keyState [0x200000000000000000000, 0, 0x100000000000000000000, 0x200000000000000000000] }

theorem witness_FastestIssueAnswersEveryCommand :
    issuing.busy = false ∧ issuing.respValid = false ∧
    issuing.inputs = issueAll issuing.keyState
      [0x200000000000000000000, 0, 0x100000000000000000000, 0x200000000000000000000] ∧
    issuing.inputs.length = 2 + 2 + 2 + 26 ∧ (issueOne ⟨0, true⟩ 0x200000000000000000000).length = 26 :=
  ⟨rfl, rfl, rfl, by decide, by decide⟩

theorem witness_BusyEndsWithinTwentyFourEdges :
    ((running defaultConfig 0 0 0 .forward).Inv ∧ (running defaultConfig 0 0 0 .forward).busy = true ∧
      (running defaultConfig 0 0 0 .forward).noReset = true) ∧
    (∃ t, (withPins waiting takePins).Inv ∧ (withPins waiting takePins).takenResponse = some (.ok, 0x05931d86) ∧
      step (withPins waiting takePins) = .next t) :=
  ⟨⟨running_inv 0 (by decide), rfl, rfl⟩,
    ⟨_, ⟨by simp [waiting, withPins, keyed, State.afterReset], by simp [waiting, withPins, keyed, State.afterReset],
      by simp [waiting, withPins, keyed, State.afterReset], by simp [waiting, withPins],
      by simp [waiting, withPins]⟩, rfl, rfl⟩⟩

theorem witness_IntViewRoundTrips : (-2 ^ 31 : Int) ≤ -2147483648 ∧ (-2147483648 : Int) < 2 ^ 31 ∧
    (-2 ^ 31 : Int) ≤ 2147483647 ∧ (2147483647 : Int) < 2 ^ 31 := by decide

theorem witness_PermutationCheckMeansABijection :
    defaultConfig.legal = true ∧ flatConfig.legal = false := ⟨test_default_sbox_legal, test_flat_sbox_refused⟩

theorem witness_KeyFromBytesChecksPresenceThenLength :
    ([] : List Byte).length ≠ 10 ∧ (List.replicate 9 (0 : Byte)).length ≠ 10 ∧
    (List.replicate 10 (0 : Byte)).length = 10 ∧ (List.replicate 11 (0 : Byte)).length ≠ 10 := by decide

theorem witness_HexDecodingReadsDigitPairsInOrder :
    decodeHex ['1', '2'] = some [0x12] ∧ hexDigit 'f' ≠ none := by decide

theorem witness_Base64DecodingKeepsLengths :
    decodeBase64 "EjRWeJCrze8BIw==".toList = some bytesA.toList ∧
    "EjRWeJCrze8BIw==".toList = "EjRWeJCrze8BIw".toList ++ List.replicate 2 '=' ∧
    "EjRWeJCrze8BIw".toList.map base64Digit =
      ([4, 35, 17, 22, 30, 9, 2, 43, 51, 30, 60, 1, 8, 48] : List Nat).map some ∧
    base64Digit 'A' = some 0 ∧ base64Digit 'z' = some 51 ∧ base64Digit '9' = some 61 ∧ base64Digit '/' = some 63 := by
  decide

theorem witness_KeyFromStringReportsTheFirstError :
    ("123".toList ≠ [] ∧ decodeKeyText .hexString "123".toList = none) ∧
    ("AAAA".toList ≠ [] ∧ decodeKeyText .base64 "AAAA".toList = some [0, 0, 0]) ∧
    decodeKeyText .base64 "AAAAAAAAAAAAAA==".toList = some (List.replicate 10 0) := by decide

theorem witness_InstancesDoNotTouchEachOther :
    ((0 : Nat) ≠ 1 ∧ (([State.reset, keyed refConfig] : Instances)[1]?).isSome = true) ∧
    (∃ t, ([State.reset, ready 0] : Instances)[1]? = some (ready 0) ∧ step (ready 0) = .next t ∧ t.respValid = true) ∧
    Instances.ofBuild defaultConfig [State.reset, keyed defaultConfig] :=
  ⟨by decide, ⟨_, rfl, rfl, rfl⟩, by simp [Instances.ofBuild, keyed, State.reset, State.afterReset]⟩

theorem witness_StepsKeepTheUnspecifiedRegistersHidden :
    (State.reset.SameShown otherReset ∧ ∃ t, step State.reset = .next t) ∧
    ((running defaultConfig 0 0 24 .forward).SameShown (running defaultConfig 0 0 24 .forward) ∧
      step (running defaultConfig 0 0 24 .forward) = .refused .roundOutOfRange) :=
  ⟨⟨witness_UnspecifiedRegistersNeverReachAnOutput.2.2.2.2, _, rfl⟩,
    ⟨rfl, rfl, rfl, rfl, rfl, fun _ => rfl, fun _ => rfl, fun _ => rfl, fun _ => rfl, fun _ => rfl, fun _ => rfl⟩, rfl⟩

/-- The per-command family at its three constructors. -/
theorem test_every_encoding_is_legal (i : Instr) : Laws.EncodesLegalWord.Statement i := by
  cases i with
  | keyload k => exact Laws.EncodesLegalWord.keyload k
  | enc d => exact Laws.EncodesLegalWord.enc d
  | dec d => exact Laws.EncodesLegalWord.dec d

end Sys2Proof.Tests
end

/-! PROOFS. From the acceptance edge of a command word to its response (spec/00_scope.md R12). -/

section
namespace Sys2Proof.Machine

/-! ### The rounds an operation still has to run -/

/-- The round indices still to run, ROUND first: up to 23 forward, down to 0 inverse (R144, R145). -/
def State.roundsToCome (s : State) : List Nat :=
  match s.dir with
  | .forward => List.range' s.round.toNat (Config.rounds - s.round.toNat)
  | .inverse => (List.range (s.round.toNat + 1)).reverse

/-- The halves after the rounds still to run. -/
def State.finalHalves (s : State) : Halves :=
  match s.dir with
  | .forward => forwardRounds s.cfg s.key s.roundsToCome s.halves
  | .inverse => inverseRounds s.cfg s.key s.roundsToCome s.halves

/-- Forward, ROUND goes up by one and stays in range. -/
theorem nextRound_forward (s : State) (hd : s.dir = .forward) (hr : s.round.toNat < Config.rounds)
    (h : s.lastRound = false) :
    s.nextRound.toNat = s.round.toNat + 1 ∧ s.nextRound.toNat < Config.rounds := by
  have hne : s.round ≠ 23 := by simpa [State.lastRound, hd] using h
  simp only [State.nextRound, hd, Config.rounds] at *
  bv_omega

/-- Inverse, ROUND goes down by one. -/
theorem nextRound_inverse (s : State) (hd : s.dir = .inverse) (h : s.lastRound = false) :
    s.nextRound.toNat + 1 = s.round.toNat := by
  have hne : s.round ≠ 0 := by simpa [State.lastRound, hd] using h
  simp only [State.nextRound, hd]
  bv_omega

/-- ROUND moves on to the next index in a round step that is not the last. -/
theorem afterRound_round (s : State) (h : s.lastRound = false) : s.afterRound.round = s.nextRound := by
  simp [afterRound_not_last s h]

/-- ROUND stays in range in a round step that is not the last. -/
theorem afterRound_round_lt (s : State) (hr : s.round.toNat < Config.rounds) (h : s.lastRound = false) :
    s.afterRound.round.toNat < Config.rounds := by
  rw [afterRound_round s h]
  cases hd : s.dir with
  | forward => exact (nextRound_forward s hd hr h).2
  | inverse =>
    have := nextRound_inverse s hd h
    omega

/-- With ROUND in range some round is still to run. -/
theorem roundsToCome_length_pos (s : State) (hr : s.round.toNat < Config.rounds) : 0 < s.roundsToCome.length := by
  cases hd : s.dir <;> simp [State.roundsToCome, hd, hr]

/-- The last round is the only one still to run. -/
theorem roundsToCome_of_last (s : State) (h : s.lastRound = true) : s.roundsToCome = [s.round.toNat] := by
  cases hd : s.dir <;> simp [State.lastRound, hd] at h <;> simp [State.roundsToCome, hd, h, Config.rounds]

/-- A round step that is not the last takes the first index off the rounds still to run. -/
theorem roundsToCome_of_not_last (s : State) (hr : s.round.toNat < Config.rounds) (h : s.lastRound = false) :
    s.roundsToCome = s.round.toNat :: s.afterRound.roundsToCome := by
  simp only [State.roundsToCome, afterRound_dir, afterRound_round s h]
  cases hd : s.dir with
  | forward =>
    have hlen : Config.rounds - s.round.toNat = Config.rounds - (s.round.toNat + 1) + 1 := by omega
    simp only [nextRound_forward s hd hr h, hlen, List.range'_succ]
  | inverse =>
    simp only [nextRound_inverse s hd h, List.range_succ, List.reverse_append, List.reverse_singleton,
      List.singleton_append]

/-- The last round step computes the final halves. -/
theorem finalHalves_of_last (s : State) (h : s.lastRound = true) : s.finalHalves = s.roundHalves := by
  cases hd : s.dir <;>
    simp [State.finalHalves, State.roundHalves, hd, roundsToCome_of_last s h, forwardRounds_cons, inverseRounds_cons]

/-- A round step that is not the last keeps the final halves. -/
theorem afterRound_finalHalves (s : State) (hr : s.round.toNat < Config.rounds) (h : s.lastRound = false) :
    s.afterRound.finalHalves = s.finalHalves := by
  cases hd : s.dir <;>
    simp [State.finalHalves, State.roundHalves, hd, roundsToCome_of_not_last s hr h, forwardRounds_cons,
      inverseRounds_cons]

/-- A round step keeps what the result is formed by, the direction and the build. -/
theorem afterRound_resultOf (s : State) (h : Halves) : s.afterRound.resultOf h = s.resultOf h := by
  simp [State.resultOf]

/-! ### Progress of a command towards its response -/

/-- How far the engine is from holding the response `r`. At 0 it is not busy and holds `r`; at `n + 1` it is busy
without a response, `n + 1` rounds are still to run, and their result is the response. -/
def State.Progress (s : State) (r : Response) : Nat → Prop
  | 0 => s.busy = false ∧ s.respValid = true ∧ (s.respStatus, s.respData) = r
  | n + 1 => s.busy = true ∧ s.respValid = false ∧ s.round.toNat < Config.rounds ∧
      s.roundsToCome.length = n + 1 ∧ (.ok, s.resultOf s.finalHalves) = r

/-- A round step brings the response one edge nearer. -/
theorem afterRound_progress (s : State) (r : Response) (n : Nat) (h : s.Progress r (n + 1)) :
    s.afterRound.Progress r n := by
  obtain ⟨hb, hv, hr, hlen, rfl⟩ := h
  cases hl : s.lastRound with
  | true =>
    obtain rfl : n = 0 := by simpa [roundsToCome_of_last s hl] using hlen.symm
    simp [State.Progress, afterRound_last s hl, finalHalves_of_last s hl]
  | false =>
    have hlen' : s.afterRound.roundsToCome.length = n := by simpa [roundsToCome_of_not_last s hr hl] using hlen
    have hr' := afterRound_round_lt s hr hl
    obtain ⟨m, rfl⟩ : ∃ m, n = m + 1 := Nat.exists_eq_add_one.mpr (hlen' ▸ roundsToCome_length_pos _ hr')
    refine ⟨?_, ?_, hr', hlen', ?_⟩
    · simpa [afterRound_not_last s hl] using hb
    · simpa [afterRound_not_last s hl] using hv
    · rw [afterRound_resultOf, afterRound_finalHalves s hr hl]

/-- An engine of build `c` with key state `ks`, with no reset to come, that holds the response `r` after `n` more
edges. -/
structure State.AnswersIn (s : State) (c : Config) (ks : KeyState) (r : Response) (n : Nat) : Prop where
  cfg : s.cfg = c
  keyState : s.keyState = ks
  noReset : s.noReset = true
  progress : s.Progress r n

/-- The edge of a busy engine without reset is a round step. -/
theorem step_of_busy (s : State) (hrst : s.pins.rst = false) (hb : s.busy = true)
    (hr : s.round.toNat < Config.rounds) : step s = .next s.afterEdge.afterRound := by
  simp [step, edge, hrst, hb, roundStep, hr]

/-- One edge of an engine on its way to a response. -/
theorem step_answersIn (s : State) (c : Config) (ks : KeyState) (r : Response) (n : Nat)
    (h : s.AnswersIn c ks r (n + 1)) : ∃ t, step s = .next t ∧ t.AnswersIn c ks r n := by
  obtain ⟨rfl, rfl, hn, hp⟩ := h
  have hp' : s.afterEdge.Progress r (n + 1) := hp
  obtain ⟨hb, -, hr, -, -⟩ := hp
  have hs := step_of_busy s (noReset_pins s hn) hb hr
  exact ⟨_, hs, by simp, by simp [State.keyState], noReset_of_tail s _ hn (step_inputs s _ hs),
    afterRound_progress _ r n hp'⟩

/-- Some edges of an engine on its way to a response. -/
theorem steps_answersIn (n m : Nat) (s : State) (c : Config) (ks : KeyState) (r : Response)
    (h : s.AnswersIn c ks r (n + m)) : ∃ t, steps n s = .next t ∧ t.AnswersIn c ks r m := by
  induction n generalizing s with
  | zero => exact ⟨s, rfl, by simpa using h⟩
  | succ n ih =>
    obtain ⟨u, hu, ha⟩ := step_answersIn s c ks r (n + m) (by rwa [Nat.succ_add] at h)
    rw [steps_succ_of_step n s u hu]
    exact ih u ha

/-- A run uses up one set of levels an edge. -/
theorem steps_inputs (n : Nat) (s t : State) (h : steps n s = .next t) : t.inputs = s.inputs.drop n := by
  induction n generalizing s with
  | zero =>
    obtain rfl : s = t := by simpa [steps] using h
    rfl
  | succ n ih =>
    rw [steps] at h
    split at h
    · next u hu => rw [ih u h, step_inputs s u hu, List.drop_tail]
    · simp at h
    · simp at h

/-! ### The acceptance edge -/

/-- The edge at which a word is accepted performs it. -/
theorem step_of_accepted (s : State) (w : CmdWord) (h : s.acceptedWord = some w) : step s = accept w s.afterEdge := by
  obtain ⟨hrst, hb, hv, hc, rfl⟩ := (acceptedWord_eq_some s w).mp h
  simp [step, edge, hrst, hb, hv, hc]

/-- Responding on an engine that is not busy. -/
theorem respond_progress (s : State) (hb : s.busy = false) (st : Status) (d : Word) :
    (s.respond st d).Progress (st, d) 0 :=
  ⟨hb, rfl, rfl⟩

/-- Raising an error on an engine that is not busy. -/
theorem raiseError_progress (s : State) (hb : s.busy = false) (e : EngineError) :
    (s.raiseError e).Progress (e.status, 0) 0 :=
  respond_progress s hb e.status 0

/-- A started encryption has 24 rounds to come, and they compute FEISTEL_ENC. -/
theorem startOperation_enc_progress (s : State) (hv : s.respValid = false) (d : Word) :
    (s.startOperation (encIn s.cfg d) 0 .forward).Progress (.ok, feistelEnc s.cfg s.key d) Config.pLat :=
  ⟨rfl, hv, by simp [Config.rounds], rfl, rfl⟩

/-- A started decryption has 24 rounds to come, and they compute FEISTEL_DEC. -/
theorem startOperation_dec_progress (s : State) (hv : s.respValid = false) (d : Word) :
    (s.startOperation (decIn d) 23 .inverse).Progress (.ok, feistelDec s.cfg s.key d) Config.pLat :=
  ⟨rfl, hv, by simp [Config.rounds], rfl, rfl⟩

/-- An accepted word takes the build, the key state and the response of the transaction level, the response after the
word's latency. -/
theorem accept_answers_transaction (w : CmdWord) (s t : State) (hb : s.busy = false) (hv : s.respValid = false)
    (h : accept w s = .next t) :
    t.cfg = s.cfg ∧ t.keyState = keyAfter s.keyState w ∧
      t.Progress (answer s.cfg s.keyState w) (latency s.keyState w) := by
  simp only [keyAfter, answer, latency, State.keyState]
  rcases accept_next_cases w s t h with ⟨i, hi, h⟩ | ⟨⟨e, he⟩, rfl⟩
  · rcases exec_next_cases i s t h with ⟨k, rfl, rfl⟩ | ⟨hk, ⟨d, rfl⟩ | ⟨d, rfl⟩, rfl⟩ | ⟨hk, d, rfl, rfl⟩ |
      ⟨hk, d, rfl, rfl⟩
    · simpa [hi] using respond_progress (s.loadKey k) hb .ok 0
    · simpa [hi, hk, EngineError.status] using raiseError_progress s hb .noKey
    · simpa [hi, hk, EngineError.status] using raiseError_progress s hb .noKey
    · simpa [hi, hk] using startOperation_enc_progress s hv d
    · simpa [hi, hk] using startOperation_dec_progress s hv d
  · simpa [he, EngineError.status] using raiseError_progress s hb .illegalCmd

/-- The acceptance edge of a word sets the engine on its way to the transaction level's response. -/
theorem step_of_accepted_answersIn (s : State) (w : CmdWord) (hw : s.acceptedWord = some w) (hn : s.noReset = true) :
    ∃ t, step s = .next t ∧
      t.AnswersIn s.cfg (keyAfter s.keyState w) (answer s.cfg s.keyState w) (latency s.keyState w) := by
  obtain ⟨-, hb, hv, -, -⟩ := (acceptedWord_eq_some s w).mp hw
  obtain ⟨t, ht⟩ := accept_answers w s.afterEdge
  have hs : step s = .next t := (step_of_accepted s w hw).trans ht
  obtain ⟨hc, hk, hp⟩ := accept_answers_transaction w s.afterEdge t hb hv ht
  exact ⟨t, hs, hc, hk, noReset_of_tail s t hn (step_inputs s t hs), hp⟩

/-- After the acceptance edge and `n` more, the engine is the rest of the latency away from the response. -/
theorem steps_of_accepted_answersIn (n m : Nat) (s : State) (w : CmdWord) (hw : s.acceptedWord = some w)
    (hn : s.noReset = true) (hl : latency s.keyState w = n + m) :
    ∃ t, steps (n + 1) s = .next t ∧ t.AnswersIn s.cfg (keyAfter s.keyState w) (answer s.cfg s.keyState w) m := by
  obtain ⟨u, hu, ha⟩ := step_of_accepted_answersIn s w hw hn
  rw [steps_succ_of_step n s u hu]
  exact steps_answersIn n m u _ _ _ (hl ▸ ha)

/-- Settles O41: the acceptance edge puts the engine the word's latency away from the transaction level's response,
and every edge after it is a round step that brings it one nearer. -/
theorem edgesMeetTheTransactionLevel : Obligations.EdgesMeetTheTransactionLevel := by
  intro s w hw hn
  constructor
  · intro n hpos hle
    obtain ⟨k, rfl⟩ : ∃ k, n = k + 1 := Nat.exists_eq_add_one.mpr hpos
    obtain ⟨m, hm⟩ : ∃ m, latency s.keyState w = k + (m + 1) := ⟨latency s.keyState w - (k + 1), by omega⟩
    obtain ⟨t, ht, ha⟩ := steps_of_accepted_answersIn k (m + 1) s w hw hn hm
    obtain ⟨hb, hv, -, -, -⟩ := ha.progress
    exact ⟨t, ht, hb, hv⟩
  · obtain ⟨t, ht, ha⟩ := steps_of_accepted_answersIn (latency s.keyState w) 0 s w hw hn rfl
    obtain ⟨hb, hv, hr⟩ := ha.progress
    exact ⟨t, ht, hb, hv, hr, ha.keyState, ha.cfg, steps_inputs _ s t ht⟩

end Sys2Proof.Machine
end

/-! PROOFS. The registers no rule lets reach an output stay hidden at every edge (spec/10_state.md R22, R25, R29, R33). -/

section
namespace Sys2Proof.Machine

/-! ### What engines that differ in unspecified registers only have in common -/

section
variable {s t : State} (h : s.SameShown t)
include h

/-- The host holds the same levels at the next edge. -/
theorem State.SameShown.pins : s.pins = t.pins := by
  simp [State.pins, h.inputs]

/-- The output ports show the same: `rsp_word` is shown with RESP_VALID only. -/
theorem State.SameShown.outputs : s.outputs = t.outputs := by
  cases hv : s.respValid with
  | false => simp [State.outputs, State.cmdReady, h.pins, h.busy, h.keyValid, ← h.respValid, hv]
  | true =>
    simp [State.outputs, State.cmdReady, h.pins, h.busy, h.keyValid, ← h.respValid, hv, h.respStatus hv, h.respData hv]

/-- In an operation both compute the same halves of the round. -/
theorem State.SameShown.roundHalves (hb : s.busy = true) : s.roundHalves = t.roundHalves := by
  simp [State.roundHalves, h.cfg, h.key (.inr hb), h.halves hb, h.round hb, h.dir hb]

/-! ### Every write of the rules keeps the differences hidden -/

theorem State.SameShown.afterEdge : s.afterEdge.SameShown t.afterEdge :=
  { h with inputs := congrArg List.tail h.inputs }

theorem State.SameShown.resetFlags : s.resetFlags.SameShown t.resetFlags :=
  { h with
    keyValid := rfl
    busy := rfl
    respValid := rfl
    key := by simp
    halves := by simp
    round := by simp
    dir := by simp
    respStatus := by simp
    respData := by simp }

theorem State.SameShown.takeResponse : s.takeResponse.SameShown t.takeResponse :=
  { h with respValid := rfl, respStatus := by simp, respData := by simp }

theorem State.SameShown.respond (st : Status) (d : Word) : (s.respond st d).SameShown (t.respond st d) :=
  { h with respValid := rfl, respStatus := fun _ => rfl, respData := fun _ => rfl }

theorem State.SameShown.raiseError (e : EngineError) : (s.raiseError e).SameShown (t.raiseError e) :=
  h.respond e.status 0

theorem State.SameShown.loadKey (k : Key) : (s.loadKey k).SameShown (t.loadKey k) :=
  { h with keyValid := rfl, key := fun _ => rfl }

theorem State.SameShown.setHalves (x : Halves) : (s.setHalves x).SameShown (t.setHalves x) :=
  { h with halves := fun _ => rfl }

theorem State.SameShown.setRound (r : BitVec 5) : (s.setRound r).SameShown (t.setRound r) :=
  { h with round := fun _ => rfl }

theorem State.SameShown.clearBusy : s.clearBusy.SameShown t.clearBusy :=
  { h with
    busy := rfl
    key := fun hk => h.key (.inl (by simpa using hk))
    halves := by simp
    round := by simp
    dir := by simp }

/-- An operation starts only with a key, so KEY is already the same. -/
theorem State.SameShown.startOperation (hk : s.keyValid = true) (x : Halves) (r : BitVec 5) (d : Dir) :
    (s.startOperation x r d).SameShown (t.startOperation x r d) :=
  { h with
    busy := rfl
    key := fun _ => h.key (.inl hk)
    halves := fun _ => rfl
    round := fun _ => rfl
    dir := fun _ => rfl }

theorem State.SameShown.startOrNoKey (x : Halves) (r : BitVec 5) (d : Dir) :
    (startOrNoKey s x r d).SameShown (startOrNoKey t x r d) := by
  cases hk : s.keyValid with
  | false => simpa [hk, h.keyValid.symm.trans hk] using h.raiseError .noKey
  | true => simpa [hk, h.keyValid.symm.trans hk] using h.startOperation hk x r d

/-- In an operation all of KEY and the datapath is the same, and so is what the round step computes. -/
theorem State.SameShown.afterRound (hb : s.busy = true) : s.afterRound.SameShown t.afterRound := by
  have hl : s.lastRound = t.lastRound := by simp [State.lastRound, h.dir hb, h.round hb]
  have hn : s.nextRound = t.nextRound := by simp [State.nextRound, h.dir hb, h.round hb]
  have hr : s.resultOf = t.resultOf := by funext x; simp [State.resultOf, h.dir hb, h.cfg]
  cases hs : s.lastRound with
  | false =>
    rw [afterRound_not_last s hs, afterRound_not_last t (hl ▸ hs), h.roundHalves hb, hn]
    exact (h.setHalves _).setRound _
  | true =>
    rw [afterRound_last s hs, afterRound_last t (hl ▸ hs), h.roundHalves hb, hr]
    exact (h.setHalves _).clearBusy.respond _ _

end

/-! ### One edge -/

/-- Two outcomes are alike: both next states that differ in unspecified registers only, or the same stop. -/
inductive SameOutcome : Host.Outcome State Fault Refusal → Host.Outcome State Fault Refusal → Prop
  | next {s t : State} (h : s.SameShown t) : SameOutcome (.next s) (.next t)
  | fault (f : Fault) : SameOutcome (.fault f) (.fault f)
  | refused (r : Refusal) : SameOutcome (.refused r) (.refused r)

section
variable {s t : State} (h : s.SameShown t)
include h

theorem exec_sameOutcome (i : Instr) : SameOutcome (exec i s) (exec i t) := by
  cases i with
  | keyload k => exact .next ((h.loadKey k).respond .ok 0)
  | enc d =>
    simp only [exec, execEnc, h.cfg]
    exact .next (h.startOrNoKey _ _ _)
  | dec d => exact .next (h.startOrNoKey _ _ _)

theorem accept_sameOutcome (w : CmdWord) : SameOutcome (accept w s) (accept w t) := by
  unfold accept
  split
  · exact exec_sameOutcome h _
  · exact .next (h.raiseError .illegalCmd)

theorem roundStep_sameOutcome (hb : s.busy = true) : SameOutcome (roundStep s) (roundStep t) := by
  unfold roundStep
  rw [← h.round hb]
  split
  · exact .next (h.afterRound hb)
  · exact .refused _

/-- The branch an edge takes is chosen by the pins, BUSY and RESP_VALID, and each branch keeps the differences
hidden. -/
theorem edge_sameOutcome (p : Pins) : SameOutcome (edge p s) (edge p t) := by
  unfold edge
  rw [← h.busy, ← h.respValid]
  split_ifs with hrst hb hv hp hc
  · exact .next h.resetFlags
  · exact roundStep_sameOutcome h hb
  · exact .next h.takeResponse
  · exact .next h
  · exact accept_sameOutcome h p.cmdWord
  · exact .next h

theorem step_sameOutcome : SameOutcome (step s) (step t) := by
  unfold step
  rw [← h.pins]
  exact edge_sameOutcome h.afterEdge s.pins

/-- Whatever the number of edges, the two runs show the same at the ports. -/
theorem shownOutputs_of_sameShown (n : Nat) : shownOutputs n s = shownOutputs n t := by
  induction n generalizing s t with
  | zero => simp [shownOutputs, h.outputs]
  | succ n ih =>
    have ho := step_sameOutcome h
    simp only [shownOutputs, h.outputs]
    generalize step s = a, step t = b at ho
    cases ho with
    | next h' => simp [ih h']
    | fault f => rfl
    | refused r => rfl

end

/-- Settles O55: each write of the rules keeps the differences hidden, and so does the edge that is made of them. -/
theorem stepsKeepTheUnspecifiedRegistersHidden : Obligations.StepsKeepTheUnspecifiedRegistersHidden := by
  intro s t h
  have ho := step_sameOutcome h
  refine ⟨h.outputs, ?_⟩
  generalize step s = a, step t = b at ho
  cases ho with
  | next h' => simpa using h'
  | fault f => simp
  | refused r => simp

/-- The three flags, when they are clear. -/
theorem flagsClear_iff (s : State) :
    s.flagsClear = true ↔ s.keyValid = false ∧ s.busy = false ∧ s.respValid = false := by
  simp [State.flagsClear, and_assoc]

/-- With the three flags clear the relation asks for the same build and the same host only. -/
theorem sameShown_of_flagsClear (s t : State) (hc : s.cfg = t.cfg) (hi : s.inputs = t.inputs)
    (hs : s.flagsClear = true) (ht : t.flagsClear = true) : s.SameShown t := by
  obtain ⟨hsk, hsb, hsv⟩ := (flagsClear_iff s).mp hs
  obtain ⟨htk, htb, htv⟩ := (flagsClear_iff t).mp ht
  exact {
    cfg := hc
    inputs := hi
    keyValid := hsk.trans htk.symm
    busy := hsb.trans htb.symm
    respValid := hsv.trans htv.symm
    key := by simp [hsk, hsb]
    halves := by simp [hsb]
    round := by simp [hsb]
    dir := by simp [hsb]
    respStatus := by simp [hsv]
    respData := by simp [hsv] }

/-- Settles O40: the step lemma repeated along the run, and the pairs of engines with the three flags clear. -/
theorem unspecifiedRegistersNeverReachAnOutput : Obligations.UnspecifiedRegistersNeverReachAnOutput :=
  ⟨fun n _ _ h => shownOutputs_of_sameShown h n, sameShown_of_flagsClear⟩

end Sys2Proof.Machine
end

/-! PROOFS. What an edge does to the build parameters, KEY and KEY_VALID (spec/10_state.md R21, R23, R24). -/

section
namespace Sys2Proof.Machine

/-- Only KEYLOAD changes the key state: it loads the key and makes it valid. -/
theorem keyAfter_cases (ks : KeyState) (w : CmdWord) :
    (∃ k, decode w = .ok (.keyload k) ∧ keyAfter ks w = ⟨k, true⟩) ∨
    ((∀ k, decode w ≠ .ok (.keyload k)) ∧ keyAfter ks w = ks) := by
  unfold keyAfter
  split
  case h_1 k hw => exact .inl ⟨k, hw, rfl⟩
  all_goals next hw => exact .inr ⟨by simp [hw], rfl⟩

/-- Without a key ENC and DEC are answered with NO_KEY, at once. -/
theorem answer_latency_of_noKey (c : Config) (ks : KeyState) (w : CmdWord) (d : Word) (hk : ks.keyValid = false)
    (hw : decode w = .ok (.enc d) ∨ decode w = .ok (.dec d)) :
    answer c ks w = (.noKey, 0) ∧ latency ks w = 0 := by
  rcases hw with hw | hw <;> simp [answer, latency, hw, hk]

/-- An acceptance edge takes the build, the key state and the response of the transaction level. -/
theorem next_of_accepted (s t : State) (w : CmdWord) (hw : s.acceptedWord = some w) (h : step s = .next t) :
    t.cfg = s.cfg ∧ t.keyState = keyAfter s.keyState w ∧
      t.Progress (answer s.cfg s.keyState w) (latency s.keyState w) := by
  obtain ⟨-, hb, hv, -, -⟩ := (acceptedWord_eq_some s w).mp hw
  exact accept_answers_transaction w s.afterEdge t hb hv ((step_of_accepted s w hw).symm.trans h)

/-- Any other edge keeps the build and KEY, and clears KEY_VALID exactly when it is a reset edge. -/
theorem next_of_not_accepted (s t : State) (hw : s.acceptedWord = none) (h : step s = .next t) :
    t.cfg = s.cfg ∧ t.key = s.key ∧ t.keyValid = (!s.pins.rst && s.keyValid) := by
  rcases step_next_cases s t h with ⟨hr, rfl⟩ | ⟨hr, -, -, rfl⟩ | ⟨hr, -, -, -, rfl⟩ | ⟨hr, -, -, -, rfl⟩ |
    ⟨hr, hb, hv, hc, -⟩ | ⟨hr, -, -, -, rfl⟩
  case inr.inr.inr.inr.inl =>
    simp [(acceptedWord_eq_some s s.pins.cmdWord).mpr ⟨hr, hb, hv, hc, rfl⟩] at hw
  all_goals simp [hr]

/-- No edge writes the build parameters. -/
theorem step_cfg (s t : State) (h : step s = .next t) : t.cfg = s.cfg := by
  cases hw : s.acceptedWord with
  | none => exact (next_of_not_accepted s t hw h).1
  | some w => exact (next_of_accepted s t w hw h).1

/-- The edge that accepts a KEYLOAD loads its key and makes it valid. -/
theorem step_of_keyload (s t : State) (w : CmdWord) (k : Key) (h : step s = .next t) (hw : s.acceptedWord = some w)
    (hd : decode w = .ok (.keyload k)) : t.key = k ∧ t.keyValid = true := by
  obtain ⟨-, hk, -⟩ := next_of_accepted s t w hw h
  simpa [State.keyState, keyAfter, hd] using hk

/-- An edge that accepts no KEYLOAD keeps KEY, and clears KEY_VALID exactly when it is a reset edge. -/
theorem step_of_no_keyload (s t : State) (h : step s = .next t)
    (hn : ∀ w k, s.acceptedWord = some w → decode w ≠ .ok (.keyload k)) :
    t.key = s.key ∧ t.keyValid = (!s.pins.rst && s.keyValid) := by
  cases hw : s.acceptedWord with
  | none => exact (next_of_not_accepted s t hw h).2
  | some w =>
    obtain ⟨hr, -, -, -, -⟩ := (acceptedWord_eq_some s w).mp hw
    obtain ⟨-, hk, -⟩ := next_of_accepted s t w hw h
    rcases keyAfter_cases s.keyState w with ⟨k, hd, -⟩ | ⟨-, ha⟩
    · exact absurd hd (hn w k hw)
    · simpa [State.keyState, hr] using hk.trans ha

/-- Settles O36: no edge writes the build parameters. -/
theorem sboxAndRoundFormAreNeverWritten : Obligations.SboxAndRoundFormAreNeverWritten :=
  fun s t h => by simp [step_cfg s t h]

/-- Settles O37: an edge loads the key of the KEYLOAD it accepts, or keeps KEY. -/
theorem onlyAnAcceptedKeyloadWritesKey : Obligations.OnlyAnAcceptedKeyloadWritesKey :=
  ⟨fun s t h => ⟨fun w k hw hd => (step_of_keyload s t w k h hw hd).1, fun hn => (step_of_no_keyload s t h hn).1⟩,
    fun _ _ _ _ _ _ => rfl⟩

/-- Settles O38: an edge that accepts no KEYLOAD clears KEY_VALID exactly when it is a reset edge, and one that
accepts a KEYLOAD sets it. -/
theorem keyValidIsSetByKeyloadAndClearedByReset : Obligations.KeyValidIsSetByKeyloadAndClearedByReset := by
  refine ⟨rfl, fun _ => rfl, fun s t h => ⟨fun w k hw hd => (step_of_keyload s t w k h hw hd).2, ?_, ?_, ?_⟩⟩
  · intro hs ht
    by_cases hn : ∃ w k, s.acceptedWord = some w ∧ decode w = .ok (.keyload k)
    · obtain ⟨w, k, hw, hd⟩ := hn
      simp [(step_of_keyload s t w k h hw hd).2] at ht
    · simpa [hs, ht] using (step_of_no_keyload s t h fun w k hw hd => hn ⟨w, k, hw, hd⟩).2
  · intro hs ht
    by_contra hn
    simpa [hs, ht] using (step_of_no_keyload s t h fun w k hw hd => hn ⟨w, k, hw, hd⟩).2
  · intro w d hw hs hd
    obtain ⟨-, -, hp⟩ := next_of_accepted s t w hw h
    obtain ⟨ha, hl⟩ := answer_latency_of_noKey s.cfg s.keyState w d hs hd
    rw [ha, hl] at hp
    obtain ⟨-, hv, hr⟩ := hp
    exact ⟨hv, Prod.mk.inj hr⟩

end Sys2Proof.Machine
end

/-! PROOFS. The state after reset, the key bytes, and several engines side by side (spec/10_state.md R20, R34, R35). -/

section
namespace Sys2Proof.Machine

/-- With BUSY and RESP_VALID clear the invariant asks for nothing. -/
theorem inv_of_idle (s : State) (hb : s.busy = false) (hv : s.respValid = false) : s.Inv where
  busy_has_key := by simp [hb]
  busy_no_response := by simp [hb]
  busy_round := by simp [hb]
  response_code := by simp [hv]
  error_data := by simp [hv]

/-- The entries of `DEFAULT_SBOX` are a permutation (R120, R122). -/
theorem defaultConfig_legal : defaultConfig.legal = true := by decide +kernel

/-- Settles O33: after reset the flags are clear, so the invariant asks for nothing. -/
theorem stateAfterResetMeetsTheInvariant : Obligations.StateAfterResetMeetsTheInvariant :=
  ⟨fun c => ⟨rfl, rfl, rfl, rfl, inv_of_idle (State.afterReset c) rfl rfl⟩, inv_of_idle State.reset rfl rfl, rfl,
    defaultConfig_legal⟩

/-- A key byte as a number. -/
theorem keyByte_toNat (k : Key) (i : Fin 10) : (keyByte k i).toNat = k.toNat / 2 ^ (72 - 8 * i.val) % 256 := by
  simp [keyByte, BitVec.extractLsb'_toNat, Nat.shiftRight_eq_div_pow]

/-- Bit `j` of the key is bit `j % 8` of key byte `9 - j / 8`. -/
theorem key_getLsbD (k : Key) (j : Nat) (hj : j < 80) :
    k.getLsbD j = (keyByte k ⟨9 - j / 8, by omega⟩).getLsbD (j % 8) := by
  have hpos : 72 - 8 * (9 - j / 8) + j % 8 = j := by omega
  have hlt : j % 8 < 8 := Nat.mod_lt _ (by decide)
  simp [keyByte, hpos, hlt]

/-- Settles O6: each key byte as a number, and each bit of the key as a bit of a key byte. -/
theorem keyBytesAreMostSignificantFirst : Obligations.KeyBytesAreMostSignificantFirst :=
  ⟨keyByte_toNat, fun k k' h => BitVec.eq_of_getLsbD_eq fun j hj => by
    rw [key_getLsbD k j hj, key_getLsbD k' j hj, h]⟩

/-- The state an engine among several holds after its edge: the next state, or its own when the step stops (log
entry 14). -/
def State.nextOrSelf (s : State) : State :=
  match step s with
  | .next t => t
  | .fault _ => s
  | .refused _ => s

theorem State.nextOrSelf_of_next (s t : State) (h : step s = .next t) : s.nextOrSelf = t := by
  simp [State.nextOrSelf, h]

/-- The build parameters stay, whether the step answers or stops. -/
@[simp] theorem State.nextOrSelf_cfg (s : State) : s.nextOrSelf.cfg = s.cfg := by
  unfold State.nextOrSelf
  split
  · exact step_cfg s _ ‹_›
  · rfl
  · rfl

/-- An edge of engine `n` changes the list at place `n` only, by that engine's own step. -/
theorem stepInstance_eq_modify (n : Nat) (es : Instances) : stepInstance n es = es.modify n State.nextOrSelf := by
  rw [List.modify_eq_set_getElem?, stepInstance]
  cases hn : es[n]? with
  | none => rfl
  | some s =>
    obtain ⟨hlt, rfl⟩ := List.getElem?_eq_some_iff.mp hn
    cases hs : step es[n] <;> simp [State.nextOrSelf, hs]

/-- Edges of two engines commute: each place of the list is changed by at most one of them. -/
theorem stepInstance_comm (n m : Nat) (es : Instances) (hnm : n ≠ m) :
    stepInstance n (stepInstance m es) = stepInstance m (stepInstance n es) := by
  simp only [stepInstance_eq_modify]
  apply List.ext_getElem?
  intro i
  by_cases hi : n = i
  · subst hi
    simp [hnm.symm]
  · simp [List.getElem?_modify, hi]

/-- Engines of one build stay of that build. -/
theorem stepInstance_ofBuild (c : Config) (n : Nat) (es : Instances) (h : es.ofBuild c) :
    Instances.ofBuild c (stepInstance n es) := by
  intro s hs
  rw [stepInstance_eq_modify] at hs
  obtain ⟨i, hi⟩ := List.mem_iff_getElem?.mp hs
  obtain ⟨u, hu, rfl⟩ : ∃ u, es[i]? = some u ∧ (if n = i then u.nextOrSelf else u) = s := by
    simpa [List.getElem?_modify] using hi
  have hc := h u (List.mem_of_getElem? hu)
  split <;> simpa using hc

/-- Settles O54: an edge of one engine is a change of the list at that engine's place by its own step. -/
theorem instancesDoNotTouchEachOther : Obligations.InstancesDoNotTouchEachOther := by
  refine ⟨?_, ?_, ?_, ?_, stepInstance_ofBuild⟩
  · intro n es s t hn hs
    simp [stepInstance_eq_modify, hn, s.nextOrSelf_of_next t hs]
  · simp [stepInstance_eq_modify]
  · exact fun n m es hnm => ⟨by simp [stepInstance_eq_modify, hnm], stepInstance_comm n m es hnm⟩
  · intro c n s hs
    rw [List.eq_of_mem_replicate hs]
    rfl

end Sys2Proof.Machine
end

/-! PROOFS. The responses taken along a run are those the transaction level gives to the words accepted
(spec/20_memory.md R61). -/

section
namespace Sys2Proof.Machine

/-! ### Command streams put together -/

/-- Every command word has one response. -/
@[simp] theorem answers_length (c : Config) (ks : KeyState) (ws : List CmdWord) :
    (answers c ks ws).length = ws.length := by
  induction ws generalizing ks with
  | nil => rfl
  | cons w ws ih => simp [answers, ih]

/-- The responses to two streams in a row: the second starts from the key state the first left. -/
theorem answers_append (c : Config) (ks : KeyState) (ws vs : List CmdWord) :
    answers c ks (ws ++ vs) = answers c ks ws ++ answers c (keyAfterAll ks ws) vs := by
  induction ws generalizing ks with
  | nil => rfl
  | cons w ws ih => simp [answers, keyAfterAll, ih]

/-- The key state after two streams in a row. -/
theorem keyAfterAll_append (ks : KeyState) (ws vs : List CmdWord) :
    keyAfterAll ks (ws ++ vs) = keyAfterAll (keyAfterAll ks ws) vs := by
  induction ws generalizing ks with
  | nil => rfl
  | cons w ws ih => simp [keyAfterAll, ih]

/-! ### What the two channels do at an edge -/

/-- A busy engine, or one with a response waiting, accepts nothing (R71). -/
theorem acceptedWord_eq_none (s : State) (h : s.busy = true ∨ s.respValid = true) : s.acceptedWord = none := by
  rcases h with h | h <;> simp [State.acceptedWord, State.cmdReady, h]

/-- Without a response waiting none is taken (R72). -/
theorem takenResponse_eq_none (s : State) (hv : s.respValid = false) : s.takenResponse = none := by
  simp [State.takenResponse, hv]

/-- The edge of an engine with a response waiting: the host takes it and the engine is idle, or it waits on. -/
theorem step_of_waiting (s : State) (hrst : s.pins.rst = false) (hb : s.busy = false) (hv : s.respValid = true) :
    (s.takenResponse = some (s.respStatus, s.respData) ∧ step s = .next s.afterEdge.takeResponse) ∨
    (s.takenResponse = none ∧ step s = .next s.afterEdge) := by
  cases hp : s.pins.rspReady <;> simp [State.takenResponse, step, edge, hrst, hb, hv, hp]

/-! ### The responses an engine still owes -/

/-- The responses an engine of build `c` with key state `ks` and no reset to come owes to the words it has accepted:
none when it is idle, and the one it is on its way to or holds otherwise. -/
inductive State.Owes (s : State) (c : Config) (ks : KeyState) : List Response → Prop
  | idle (hc : s.cfg = c) (hk : s.keyState = ks) (hn : s.noReset = true) (hb : s.busy = false)
      (hv : s.respValid = false) : s.Owes c ks []
  | answersIn (r : Response) (n : Nat) (h : s.AnswersIn c ks r n) : s.Owes c ks [r]

/-- An engine owes at most one response. -/
theorem State.Owes.length_le_one {s : State} {c : Config} {ks : KeyState} {rs : List Response} (h : s.Owes c ks rs) :
    rs.length ≤ 1 := by
  cases h <;> simp

/-- The outcome of a run in which `ws` were accepted and `taken` handed over, from an engine that owed `rs`: the engine
has the transaction level's key state, and what was taken and what it owes now are, in order, what it owed before and
the transaction level's responses to `ws`. -/
def Balanced (c : Config) (ks : KeyState) (rs : List Response) (ws : List CmdWord) (taken : List Response)
    (t : State) : Prop :=
  ∃ rs', t.Owes c (keyAfterAll ks ws) rs' ∧ taken ++ rs' = rs ++ answers c ks ws

/-- Balance carries over to a run after one that took `taken` and left `rs'` owed. -/
theorem Balanced.after {c : Config} {ks : KeyState} {rs rs' taken taken' : List Response} {ws ws' : List CmdWord}
    {t : State} (h : Balanced c (keyAfterAll ks ws) rs' ws' taken' t) (he : taken ++ rs' = rs ++ answers c ks ws) :
    Balanced c ks rs (ws ++ ws') (taken ++ taken') t := by
  obtain ⟨rs'', ho, he'⟩ := h
  refine ⟨rs'', keyAfterAll_append ks ws ws' ▸ ho, ?_⟩
  calc taken ++ taken' ++ rs''
      = taken ++ rs' ++ answers c (keyAfterAll ks ws) ws' := by rw [List.append_assoc, he', List.append_assoc]
    _ = rs ++ answers c ks (ws ++ ws') := by rw [he, List.append_assoc, answers_append]

/-- An edge of an idle engine: it stays idle, or owes the response to the word it accepts. -/
theorem step_of_idle_balanced (s : State) (hn : s.noReset = true) (hb : s.busy = false) (hv : s.respValid = false) :
    ∃ t, step s = .next t ∧
      Balanced s.cfg s.keyState [] s.acceptedWord.toList s.takenResponse.toList t := by
  rw [takenResponse_eq_none s hv]
  cases hw : s.acceptedWord with
  | none =>
    obtain ⟨-, t, ht, hb', hv', hi⟩ := step_of_idle_of_none s hb hv hw
    obtain ⟨hc, hk, hkv⟩ := next_of_not_accepted s t hw ht
    have hks : t.keyState = s.keyState := by simp [State.keyState, hk, hkv, noReset_pins s hn]
    exact ⟨t, ht, [], .idle hc hks (noReset_of_tail s t hn hi) hb' hv', rfl⟩
  | some w =>
    obtain ⟨t, ht, ha⟩ := step_of_accepted_answersIn s w hw hn
    exact ⟨t, ht, [answer s.cfg s.keyState w], .answersIn _ _ ha, rfl⟩

/-- An edge of an engine on its way to a response: it accepts nothing, and the response is nearer, still waiting, or
taken. -/
theorem step_of_answersIn_balanced (s : State) (c : Config) (ks : KeyState) (r : Response) (n : Nat)
    (h : s.AnswersIn c ks r n) :
    ∃ t, step s = .next t ∧ Balanced c ks [r] s.acceptedWord.toList s.takenResponse.toList t := by
  cases n with
  | zero =>
    obtain ⟨hc, hk, hn, hb, hv, hr⟩ := h
    rw [acceptedWord_eq_none s (.inr hv)]
    have hn' : s.afterEdge.noReset = true := noReset_of_tail s _ hn rfl
    rcases step_of_waiting s (noReset_pins s hn) hb hv with ⟨ht, hs⟩ | ⟨ht, hs⟩
    · exact ⟨_, hs, [], .idle hc hk hn' hb rfl, by simp [ht, hr, answers]⟩
    · exact ⟨_, hs, [r], .answersIn r 0 ⟨hc, hk, hn', hb, hv, hr⟩, by simp [ht, answers]⟩
  | succ n =>
    obtain ⟨t, hs, ha⟩ := step_answersIn s c ks r n h
    obtain ⟨hb, hv, -, -, -⟩ := h.progress
    rw [acceptedWord_eq_none s (.inl hb), takenResponse_eq_none s hv]
    exact ⟨t, hs, [r], .answersIn r n ha, rfl⟩

/-- Every edge without reset is in balance: R61 for one edge. -/
theorem step_balanced (s : State) (c : Config) (ks : KeyState) (rs : List Response) (h : s.Owes c ks rs) :
    ∃ t, step s = .next t ∧ Balanced c ks rs s.acceptedWord.toList s.takenResponse.toList t := by
  cases h with
  | idle hc hk hn hb hv =>
    subst hc hk
    exact step_of_idle_balanced s hn hb hv
  | answersIn r n ha => exact step_of_answersIn_balanced s c ks r n ha

/-- Every run without reset is in balance. -/
theorem steps_balanced (n : Nat) (s : State) (c : Config) (ks : KeyState) (rs : List Response) (h : s.Owes c ks rs) :
    ∃ t, steps n s = .next t ∧ Balanced c ks rs (acceptedWords n s) (takenResponses n s) t := by
  induction n generalizing s ks rs with
  | zero => exact ⟨s, rfl, rs, h, by simp [acceptedWords, takenResponses, answers]⟩
  | succ n ih =>
    obtain ⟨u, hu, rs', ho, he⟩ := step_balanced s c ks rs h
    obtain ⟨t, ht, hbal⟩ := ih u _ rs' ho
    refine ⟨t, (steps_succ_of_step n s u hu).trans ht, ?_⟩
    simpa [acceptedWords, takenResponses, hu] using hbal.after he

/-- Settles O43: an idle engine owes nothing, and after a run what was taken falls short of the transaction level's
responses by what the engine owes, which is at most one. -/
theorem responsesAnswerTheCommandsInOrder : Obligations.ResponsesAnswerTheCommandsInOrder := by
  intro n s hb hv hn
  obtain ⟨t, -, rs, ho, he⟩ := steps_balanced n s s.cfg s.keyState [] (.idle rfl rfl hn hb hv)
  rw [List.nil_append] at he
  refine ⟨⟨rs, he⟩, ?_⟩
  have hlen := congrArg List.length he
  simp only [List.length_append, answers_length] at hlen
  have hle := ho.length_le_one
  omega

end Sys2Proof.Machine
end

/-! PROOFS. The command words of the engine and the edges of its two channels (spec/30_encoding.md R71, R72, R77, R82,
R83). -/

section
namespace Sys2Proof

/-! ### The decoder by the fields of a word -/

theorem decode_of_op_keyload (w : CmdWord) (h : opField w = 1) : decode w = .ok (.keyload (payloadField w)) := by
  simp [decode, h]

theorem decode_of_op_enc (w : CmdWord) (h : opField w = 2) (hz : rsvdField w = 0) :
    decode w = .ok (.enc (dataField w)) := by
  simp [decode, h, hz]

theorem decode_of_op_dec (w : CmdWord) (h : opField w = 3) (hz : rsvdField w = 0) :
    decode w = .ok (.dec (dataField w)) := by
  simp [decode, h, hz]

/-- A word outside the three rows of the opcode table is illegal. -/
theorem decode_of_no_row (w : CmdWord)
    (h : ¬ (opField w = 1 ∨ ((opField w = 2 ∨ opField w = 3) ∧ rsvdField w = 0))) : ∃ e, decode w = .error e := by
  obtain ⟨h1, h23⟩ := not_or.mp h
  rw [decode, if_neg h1]
  by_cases h2 : opField w = 2
  · have hz : rsvdField w ≠ 0 := fun hz => h23 ⟨.inl h2, hz⟩
    exact ⟨_, by rw [if_pos h2, if_neg hz]⟩
  · by_cases h3 : opField w = 3
    · have hz : rsvdField w ≠ 0 := fun hz => h23 ⟨.inr h3, hz⟩
      exact ⟨_, by rw [if_neg h2, if_pos h3, if_neg hz]⟩
    · exact ⟨_, by rw [if_neg h2, if_neg h3]⟩

/-- The arithmetic of R77 on the whole word, read as conditions on its fields. -/
theorem legalWord_iff_fields (w : CmdWord) :
    legalWord w = true ↔ opField w = 1 ∨ ((opField w = 2 ∨ opField w = 3) ∧ rsvdField w = 0) := by
  simp [legalWord, ← BitVec.toNat_inj]

theorem decode_of_legalWord (w : CmdWord) (h : legalWord w = true) : ∃ i, decode w = .ok i := by
  rcases (legalWord_iff_fields w).mp h with h1 | ⟨h2 | h3, hz⟩
  · exact ⟨_, decode_of_op_keyload w h1⟩
  · exact ⟨_, decode_of_op_enc w h2 hz⟩
  · exact ⟨_, decode_of_op_dec w h3 hz⟩

theorem decode_of_not_legalWord (w : CmdWord) (h : legalWord w = false) : ∃ e, decode w = .error e :=
  decode_of_no_row w fun hf => by simp [(legalWord_iff_fields w).mpr hf] at h

theorem legalWord_iff_decode (w : CmdWord) : legalWord w = true ↔ ∃ i, decode w = .ok i := by
  refine ⟨decode_of_legalWord w, fun ⟨i, hi⟩ => ?_⟩
  by_contra hl
  obtain ⟨e, he⟩ := decode_of_not_legalWord w (Bool.eq_false_iff.mpr hl)
  simp [hi] at he

/-- A number that `decodeTableWord` reads as a command is that command's word, its bits above `nbits` cut off. -/
theorem decode_of_decodeTableWord (nbits w : Nat) (i : Instr) (h : decodeTableWord nbits w = some i) :
    decode (BitVec.ofNat 84 (w % 2 ^ nbits)) = .ok i := by
  simp only [decodeTableWord] at h
  split at h
  · split at h
    · next j hj => rw [hj, Option.some.inj h]
    · simp at h
  · simp at h

end Sys2Proof

namespace Sys2Proof.Machine

/-! ### Performing an accepted word -/

theorem accept_of_decode_ok (w : CmdWord) (i : Instr) (s : State) (h : decode w = .ok i) : accept w s = exec i s := by
  simp [accept, h]

theorem accept_of_decode_error (w : CmdWord) (e : IllegalWord) (s : State) (h : decode w = .error e) :
    accept w s = .next (s.raiseError .illegalCmd) := by
  simp [accept, h, acceptIllegal]

/-! ### The edges of the command channel and of the response channel -/

theorem cmdReady_iff (s : State) : s.cmdReady = true ↔ s.pins.rst = false ∧ s.busy = false ∧ s.respValid = false := by
  simp [State.cmdReady, and_assoc]

theorem step_of_ready (s : State) (hr : s.cmdReady = true) (hc : s.pins.cmdValid = true) :
    step s = accept s.pins.cmdWord s.afterEdge :=
  step_of_accepted s s.pins.cmdWord (by simp [State.acceptedWord, hr, hc])

/-- The edge of a ready engine that is offered a legal word performs its command. -/
theorem step_of_ready_of_decode (s : State) (i : Instr) (hr : s.cmdReady = true) (hc : s.pins.cmdValid = true)
    (hi : decode s.pins.cmdWord = .ok i) : step s = exec i s.afterEdge :=
  (step_of_ready s hr hc).trans (accept_of_decode_ok _ i _ hi)

/-- Under reset, in a round step and with a response waiting, an edge does not read the command channel. -/
theorem edge_ignores_command (p : Pins) (s : State) (v : Bool) (w : CmdWord)
    (h : p.rst = true ∨ s.busy = true ∨ s.respValid = true) :
    edge { p with cmdValid := v, cmdWord := w } s = edge p s := by
  rcases h with h | h | h <;> simp [edge, h]

/-- The edge at which the host takes the waiting response. -/
theorem step_of_taken (s : State) (hb : s.busy = false) (hrst : s.pins.rst = false) (hv : s.respValid = true)
    (hp : s.pins.rspReady = true) : step s = .next s.afterEdge.takeResponse := by
  simp [step, edge, hb, hrst, hv, hp]

/-- An edge at which the response waits on. -/
theorem step_of_not_taken (s : State) (hb : s.busy = false) (hrst : s.pins.rst = false) (hv : s.respValid = true)
    (hp : s.pins.rspReady = false) : step s = .next s.afterEdge := by
  simp [step, edge, hb, hrst, hv, hp]

theorem step_of_idle_unoffered (s : State) (hb : s.busy = false) (hrst : s.pins.rst = false)
    (hv : s.respValid = false) (hc : s.pins.cmdValid = false) : step s = .next s.afterEdge := by
  simp [step, edge, hb, hrst, hv, hc]

/-! ### The statements of 30_encoding.md -/

/-- Settles O5: the arithmetic of R77 and the decoder ask the same of the fields of a word, and an illegal word raises
the error and does nothing else. -/
theorem exactlyTheLegalWordsAreCommands : Obligations.ExactlyTheLegalWordsAreCommands := by
  refine fun w => ⟨legalWord_iff_decode w, fun hl s => ?_⟩
  obtain ⟨e, he⟩ := decode_of_not_legalWord w hl
  exact accept_of_decode_error w e s he

/-- Settles O30: without cmd_ready the edge is a reset, a round step or a waiting response, and none of these reads the
command channel. -/
theorem commandIsAcceptedExactlyWhenReady : Obligations.CommandIsAcceptedExactlyWhenReady := by
  refine fun s => ⟨rfl, cmdReady_iff s, step_of_ready s, fun hr v w => ?_⟩
  have hcases : s.pins.rst = true ∨ s.busy = true ∨ s.respValid = true := by
    by_contra hn
    simp only [not_or, Bool.not_eq_true] at hn
    simp [(cmdReady_iff s).mpr hn] at hr
  exact edge_ignores_command s.pins s.afterEdge v w hcases

/-- Settles O1: the four legal words by evaluating the decoder, the two illegal ones by their fields, which are those of
no row of the opcode table. -/
theorem specCommandWordsDecode : Obligations.SpecCommandWordsDecode :=
  ⟨by decide, by decide, by decide, by decide, decode_of_no_row _ (by decide), decode_of_no_row _ (by decide)⟩

/-- Settles O4: the decoder's equations, row by row of the opcode table. -/
theorem everyWordDecodesByItsFields : Obligations.EveryWordDecodesByItsFields :=
  fun w => ⟨decode_of_op_keyload w, decode_of_op_enc w, decode_of_op_dec w, decode_of_no_row w⟩

/-- Settles O25: a ready engine performs the command it is offered, and `withFetchWord` makes the engine ready and
offers it the word. -/
theorem stepRunsTheDecodedCommand : Obligations.StepRunsTheDecodedCommand :=
  ⟨step_of_ready_of_decode, fun s nbits w i h =>
    step_of_ready_of_decode (s.withFetchWord nbits w) i rfl rfl (decode_of_decodeTableWord nbits w i h)⟩

/-- Settles O29: an edge with a response waiting clears RESP_VALID or keeps every register, as rsp_ready says, and an
idle edge without an offer keeps every register. -/
theorem responseStaysOfferedUntilTaken : Obligations.ResponseStaysOfferedUntilTaken := by
  refine ⟨⟨rfl, rfl, rfl, rfl⟩, fun s => ⟨rfl, fun hv => ?_, fun hb hrst hv => ?_, step_of_idle_unoffered s⟩⟩
  · simp [State.outputs, hv, rspWord]
  · exact ⟨acceptedWord_eq_none s (.inr hv), step_of_taken s hb hrst hv, step_of_not_taken s hb hrst hv⟩

end Sys2Proof.Machine
end

/-! PROOFS. Host key preparation: the two text decoders, the length check, and the KEYLOAD issued for the ten bytes
(spec/40_key_material.md section 1). -/

section
namespace Sys2Proof.Machine

/-! ### Digits of either format -/

/-- What holds of the characters below 128 holds of every character with so small a number. -/
theorem forall_of_forall_ascii (P : Char → Prop) (h : ∀ n < 128, P (Char.ofNat n)) (ch : Char)
    (hch : ch.toNat < 128) : P ch := by
  simpa using h ch.toNat hch

/-- Every hexadecimal digit is an ASCII character. -/
theorem hexDigit_eq_none (ch : Char) (hch : ¬ ch.toNat < 128) : hexDigit ch = none := by
  simp only [hexDigit]
  rw [if_neg (by omega), if_neg (by omega), if_neg (by omega)]

theorem mem_of_hexDigit (ch : Char) (h : hexDigit ch ≠ none) : ch ∈ "0123456789abcdefABCDEF".toList :=
  forall_of_forall_ascii (fun ch => hexDigit ch ≠ none → ch ∈ "0123456789abcdefABCDEF".toList) (by decide) ch
    (not_imp_comm.mp (hexDigit_eq_none ch) h) h

/-! ### HexString (R102) -/

/-- Byte `i` of `bs` is read from the digit pair at place `i` of `cs`, high nibble first. -/
def HexPairAt (cs : List Char) (bs : List Byte) (i : Nat) : Prop :=
  ∃ a b x y, cs[2 * i]? = some a ∧ cs[2 * i + 1]? = some b ∧
    hexDigit a = some x ∧ hexDigit b = some y ∧ bs[i]? = some (BitVec.ofNat 8 (16 * x + y))

/-- The places after the first pair are those of the rest. -/
theorem hexPairAt_succ (a b : Char) (cs : List Char) (v : Byte) (bs : List Byte) (i : Nat) :
    HexPairAt (a :: b :: cs) (v :: bs) (i + 1) ↔ HexPairAt cs bs i := by
  simp [HexPairAt, Nat.mul_succ]

theorem hexPairAt_zero (a b : Char) (cs : List Char) (v : Byte) (bs : List Byte) :
    HexPairAt (a :: b :: cs) (v :: bs) 0 ↔
      ∃ x y, hexDigit a = some x ∧ hexDigit b = some y ∧ v = BitVec.ofNat 8 (16 * x + y) := by
  simp [HexPairAt]

/-- A first pair is decoded, and the rest on its own. -/
theorem hexPairs_cons_cons (a b : Char) (cs : List Char) (bs : List Byte) :
    hexPairs (a :: b :: cs) = some bs ↔
      ∃ x y bs', hexDigit a = some x ∧ hexDigit b = some y ∧ hexPairs cs = some bs' ∧
        bs = BitVec.ofNat 8 (16 * x + y) :: bs' := by
  rw [hexPairs]
  cases hexDigit a <;> cases hexDigit b <;> cases hexPairs cs <;> simp [eq_comm]

/-- A run of digit pairs decodes to its bytes, and to nothing else. -/
theorem hexPairs_eq_some_iff :
    ∀ (cs : List Char) (bs : List Byte),
      hexPairs cs = some bs ↔ cs.length = 2 * bs.length ∧ ∀ i < bs.length, HexPairAt cs bs i
  | [], bs => by cases bs <;> simp [hexPairs]
  | [_], bs => by
    simp only [hexPairs, List.length_singleton, reduceCtorEq, false_iff]
    omega
  | a :: b :: cs, [] => by simp [hexPairs_cons_cons]
  | a :: b :: cs, v :: bs => by
    have ih := hexPairs_eq_some_iff cs bs
    simp only [List.length_cons, Nat.forall_lt_succ_left, hexPairAt_zero, hexPairAt_succ]
    constructor
    · intro h
      obtain ⟨x, y, _, hx, hy, hcs, hv⟩ := (hexPairs_cons_cons a b cs (v :: bs)).mp h
      obtain ⟨rfl, rfl⟩ := List.cons.inj hv
      obtain ⟨hlen, hat⟩ := ih.mp hcs
      exact ⟨by omega, ⟨x, y, hx, hy, rfl⟩, hat⟩
    · rintro ⟨hlen, ⟨x, y, hx, hy, rfl⟩, hat⟩
      exact (hexPairs_cons_cons a b cs _).mpr ⟨x, y, bs, hx, hy, ih.mpr ⟨by omega, hat⟩, rfl⟩

theorem decodeHex_eq_some_iff (cs : List Char) (bs : List Byte) :
    decodeHex cs = some bs ↔ cs ≠ [] ∧ hexPairs cs = some bs := by
  cases cs <;> simp [decodeHex]

/-- Settles O50: a non-empty text decodes pair by pair, and every digit is one of the 128 ASCII characters. -/
theorem hexDecodingReadsDigitPairsInOrder : Obligations.HexDecodingReadsDigitPairsInOrder := by
  refine ⟨fun cs bs => ?_, by decide, by decide, mem_of_hexDigit⟩
  rw [decodeHex_eq_some_iff, hexPairs_eq_some_iff]
  rfl

/-! ### Base64 (R103) -/

/-- The standard alphabet, the character of value `x` at place `x`. -/
def base64Alphabet : List Char := "ABCDEFGHIJKLMNOPQRSTUVWXYZabcdefghijklmnopqrstuvwxyz0123456789+/".toList

theorem base64Digit_lt (ch : Char) (x : Nat) (h : base64Digit ch = some x) : x < 64 := by
  simp only [base64Digit] at h
  split_ifs at h <;> simp only [Option.some.injEq] at h <;> omega

/-- Every digit of the alphabet is an ASCII character. -/
theorem base64Digit_eq_none (ch : Char) (hch : ¬ ch.toNat < 128) : base64Digit ch = none := by
  simp only [base64Digit]
  rw [if_neg (by omega), if_neg (by omega), if_neg (by omega), if_neg (by omega), if_neg (by omega)]

theorem mem_of_base64Digit (ch : Char) (h : base64Digit ch ≠ none) : ch ∈ base64Alphabet :=
  forall_of_forall_ascii (fun ch => base64Digit ch ≠ none → ch ∈ base64Alphabet) (by decide +kernel) ch
    (not_imp_comm.mp (base64Digit_eq_none ch) h) h

/-- The padding character is no digit. -/
theorem ne_pad_of_base64Digit (ch : Char) (x : Nat) (h : base64Digit ch = some x) : ch ≠ '=' := by
  rintro rfl
  simp [base64Digit] at h

/-- Byte `i` of the sextets `xs`: the one at place `i % 3` of the 24 bits of group `i / 3`, a missing sextet
counting as 0. -/
def sextetByte (xs : List Nat) (i : Nat) : Byte :=
  let sextet : Nat → Nat := fun j => xs.getD (4 * (i / 3) + j) 0
  BitVec.ofNat 8
    ((((sextet 0 * 64 + sextet 1) * 64 + sextet 2) * 64 + sextet 3) / 2 ^ (16 - 8 * (i % 3)))

/-- The first `n` bytes of the sextets `xs`. -/
def sextetBytes (xs : List Nat) (n : Nat) : List Byte := (List.range n).map (sextetByte xs)

/-- The bytes after the first group are those of the rest. -/
theorem sextetByte_add_three (x y z w : Nat) (xs : List Nat) (i : Nat) :
    sextetByte (x :: y :: z :: w :: xs) (3 + i) = sextetByte xs i := by
  have hdiv : (3 + i) / 3 = i / 3 + 1 := by omega
  simp [sextetByte, hdiv, Nat.mul_succ]

/-- A byte of the 24 bits of four sextets. -/
theorem extractLsb'_sextets (v k : Nat) (hk : k + 8 ≤ 24) :
    (BitVec.ofNat 24 v).extractLsb' k 8 = BitVec.ofNat 8 (v / 2 ^ k) := by
  apply BitVec.eq_of_getLsbD_eq
  intro i hi
  have hki : k + i < 24 := by omega
  simp only [BitVec.getLsbD_extractLsb', BitVec.getLsbD_ofNat, hi, hki, Nat.testBit_div_two_pow, Nat.add_comm,
    decide_true, Bool.true_and]

/-- Up to three bytes are those of the first group. -/
theorem sextetBytes_of_le_three (xs : List Nat) (n : Nat) (hn : n ≤ 3) :
    sextetBytes xs n = groupBytes n (xs.getD 0 0) (xs.getD 1 0) (xs.getD 2 0) (xs.getD 3 0) := by
  interval_cases n <;> simp [sextetBytes, sextetByte, List.range_succ, groupBytes, extractLsb'_sextets]

/-- The bytes of a first group, then those of the rest. -/
theorem sextetBytes_group (x y z w : Nat) (xs : List Nat) (n : Nat) :
    sextetBytes (x :: y :: z :: w :: xs) (3 + n) = groupBytes 3 x y z w ++ sextetBytes xs n := by
  have hfirst : sextetBytes (x :: y :: z :: w :: xs) 3 = groupBytes 3 x y z w := sextetBytes_of_le_three _ 3 le_rfl
  rw [← hfirst]
  simp [sextetBytes, List.range_add, Function.comp_def, sextetByte_add_three]

/-- The bytes `bs` are the first bytes of `xs` when each is the byte at its place. -/
theorem eq_sextetBytes_iff (bs : List Byte) (xs : List Nat) (n : Nat) :
    bs = sextetBytes xs n ↔ bs.length = n ∧ ∀ i < bs.length, bs[i]? = some (sextetByte xs i) := by
  constructor
  · rintro rfl
    simp +contextual [sextetBytes]
  · rintro ⟨rfl, h⟩
    refine List.ext_getElem? fun i => ?_
    by_cases hi : i < bs.length
    · rw [h i hi]
      simp [sextetBytes, hi]
    · simp [sextetBytes, hi]

/-- The text `cs` writes the sextets `xs` as the digits `data` and then `p` padding characters, in whole groups of
four. -/
structure Base64Written (cs data : List Char) (xs : List Nat) (p : Nat) : Prop where
  pad_le : p ≤ 2
  text : cs = data ++ List.replicate p '='
  digits : data.map base64Digit = xs.map some
  groups : cs.length % 4 = 0

/-- The digits of a text and their sextets come in pairs. -/
theorem digits_cons_iff (a : Char) (data : List Char) (xs : List Nat) :
    (a :: data).map base64Digit = xs.map some ↔
      ∃ x xs', xs = x :: xs' ∧ base64Digit a = some x ∧ data.map base64Digit = xs'.map some := by
  cases xs <;> simp

/-- A group of four digits decodes to three bytes, and the rest on its own. -/
theorem decodeBase64_group (a b c d : Char) (cs : List Char) (x y z w : Nat) (ha : base64Digit a = some x)
    (hb : base64Digit b = some y) (hc : base64Digit c = some z) (hd : base64Digit d = some w) :
    decodeBase64 (a :: b :: c :: d :: cs) = (decodeBase64 cs).map (groupBytes 3 x y z w ++ ·) := by
  rw [decodeBase64]
  cases h : decodeBase64 cs <;> simp [ne_pad_of_base64Digit d w hd, ha, hb, hc, hd]

theorem decodeBase64_pad_one (a b c : Char) (x y z : Nat) (ha : base64Digit a = some x)
    (hb : base64Digit b = some y) (hc : base64Digit c = some z) :
    decodeBase64 [a, b, c, '='] = some (groupBytes 2 x y z 0) := by
  simp [decodeBase64, ne_pad_of_base64Digit c z hc, ha, hb, hc]

theorem decodeBase64_pad_two (a b : Char) (x y : Nat) (ha : base64Digit a = some x) (hb : base64Digit b = some y) :
    decodeBase64 [a, b, '=', '='] = some (groupBytes 1 x y 0 0) := by
  simp [decodeBase64, ha, hb]

/-- What a text whose first group of four decodes looks like: padded at its very end, or four digits. -/
theorem decodeBase64_cases (a b c d : Char) (cs : List Char) (bs : List Byte)
    (h : decodeBase64 (a :: b :: c :: d :: cs) = some bs) :
    ∃ x y, base64Digit a = some x ∧ base64Digit b = some y ∧
      ((cs = [] ∧ c = '=' ∧ d = '=') ∨ ∃ z, base64Digit c = some z ∧
        ((cs = [] ∧ d = '=') ∨ ∃ w bs', base64Digit d = some w ∧ decodeBase64 cs = some bs')) := by
  rw [decodeBase64] at h
  split at h
  · next hpad =>
    obtain ⟨rfl, rfl⟩ : cs = [] ∧ d = '=' := by simpa using hpad
    split at h
    · next hc =>
      split at h
      · next x y hx hy => exact ⟨x, y, hx, hy, .inl ⟨rfl, by simpa using hc, rfl⟩⟩
      · simp at h
    · split at h
      · next x y z hx hy hz => exact ⟨x, y, hx, hy, .inr ⟨z, hz, .inl ⟨rfl, rfl⟩⟩⟩
      · simp at h
  · split at h
    · next x y z w bs' hx hy hz hw hbs => exact ⟨x, y, hx, hy, .inr ⟨z, hz, .inr ⟨w, bs', hw, hbs⟩⟩⟩
    · simp at h

/-- A group of four digits in front of a written text. -/
theorem Base64Written.group {cs data : List Char} {xs : List Nat} {p : Nat} (h : Base64Written cs data xs p)
    (a b c d : Char) (x y z w : Nat) (ha : base64Digit a = some x)
    (hb : base64Digit b = some y) (hc : base64Digit c = some z) (hd : base64Digit d = some w) :
    Base64Written (a :: b :: c :: d :: cs) (a :: b :: c :: d :: data) (x :: y :: z :: w :: xs) p where
  pad_le := h.pad_le
  text := by simp [h.text]
  digits := by simp [h.digits, ha, hb, hc, hd]
  groups := (Nat.add_mod_right cs.length 4).trans h.groups

/-- A text that decodes is written in the alphabet. -/
theorem written_of_decodeBase64 :
    ∀ (cs : List Char) (bs : List Byte), decodeBase64 cs = some bs → ∃ data xs p, Base64Written cs data xs p
  | [], _, _ => ⟨[], [], 0, by simp, rfl, rfl, rfl⟩
  | [_], _, h | [_, _], _, h | [_, _, _], _, h => by simp [decodeBase64] at h
  | a :: b :: c :: d :: cs, bs, h => by
    obtain ⟨x, y, ha, hb, ⟨rfl, rfl, rfl⟩ | ⟨z, hc, ⟨rfl, rfl⟩ | ⟨w, bs', hd, hbs⟩⟩⟩ :=
      decodeBase64_cases a b c d cs bs h
    · exact ⟨[a, b], [x, y], 2, by simp, rfl, by simp [ha, hb], by simp⟩
    · exact ⟨[a, b, c], [x, y, z], 1, by simp, rfl, by simp [ha, hb, hc], by simp⟩
    · obtain ⟨data, xs, p, hw⟩ := written_of_decodeBase64 cs bs' hbs
      exact ⟨_, _, p, hw.group a b c d x y z w ha hb hc hd⟩

/-- A written text decodes to the bytes of its sextets, three for each group less one for each padding character. -/
theorem decodeBase64_of_written :
    ∀ (data cs : List Char) (xs : List Nat) (p : Nat), Base64Written cs data xs p →
      ∃ n, n + p = 3 * (cs.length / 4) ∧ decodeBase64 cs = some (sextetBytes xs n)
  | [], cs, xs, p, h => by
    obtain ⟨hp, rfl, hd, hg⟩ := h
    obtain rfl : p = 0 := by
      simp only [List.nil_append, List.length_replicate] at hg
      omega
    obtain rfl : xs = [] := by simpa using hd.symm
    exact ⟨0, rfl, rfl⟩
  | [a], cs, xs, p, h => by
    obtain ⟨hp, rfl, -, hg⟩ := h
    simp only [List.length_append, List.length_cons, List.length_nil, List.length_replicate] at hg
    omega
  | [a, b], cs, xs, p, h => by
    obtain ⟨hp, rfl, hd, hg⟩ := h
    obtain rfl : p = 2 := by
      simp only [List.length_append, List.length_cons, List.length_nil, List.length_replicate] at hg
      omega
    simp only [digits_cons_iff] at hd
    obtain ⟨x, _, rfl, ha, y, xs, rfl, hb, hd⟩ := hd
    obtain rfl : xs = [] := by simpa using hd.symm
    have hbytes := sextetBytes_of_le_three [x, y] 1 (by decide)
    exact ⟨1, by simp, hbytes ▸ decodeBase64_pad_two a b x y ha hb⟩
  | [a, b, c], cs, xs, p, h => by
    obtain ⟨hp, rfl, hd, hg⟩ := h
    obtain rfl : p = 1 := by
      simp only [List.length_append, List.length_cons, List.length_nil, List.length_replicate] at hg
      omega
    simp only [digits_cons_iff] at hd
    obtain ⟨x, _, rfl, ha, y, _, rfl, hb, z, xs, rfl, hc, hd⟩ := hd
    obtain rfl : xs = [] := by simpa using hd.symm
    have hbytes := sextetBytes_of_le_three [x, y, z] 2 (by decide)
    exact ⟨2, by simp, hbytes ▸ decodeBase64_pad_one a b c x y z ha hb hc⟩
  | a :: b :: c :: d :: data, cs, xs, p, h => by
    obtain ⟨hp, rfl, hd, hg⟩ := h
    simp only [digits_cons_iff] at hd
    obtain ⟨x, _, rfl, ha, y, _, rfl, hb, z, _, rfl, hc, w, xs, rfl, hd', hd⟩ := hd
    have hrest : Base64Written (data ++ List.replicate p '=') data xs p :=
      ⟨hp, rfl, hd, (Nat.add_mod_right _ 4).symm.trans hg⟩
    obtain ⟨n, hn, hbs⟩ := decodeBase64_of_written data _ xs p hrest
    refine ⟨3 + n, ?_, ?_⟩
    · simp only [List.cons_append, List.length_cons]
      omega
    · rw [sextetBytes_group]
      simp [decodeBase64_group a b c d _ x y z w ha hb hc hd', hbs]

/-- A text decodes exactly when it is written in the alphabet, and then to the bytes of its sextets. -/
theorem decodeBase64_eq_some_iff (cs : List Char) (bs : List Byte) :
    decodeBase64 cs = some bs ↔ ∃ data xs p, Base64Written cs data xs p ∧ bs.length + p = 3 * (cs.length / 4) ∧
      ∀ i < bs.length, bs[i]? = some (sextetByte xs i) := by
  constructor
  · intro h
    obtain ⟨data, xs, p, hw⟩ := written_of_decodeBase64 cs bs h
    obtain ⟨n, hn, hbs⟩ := decodeBase64_of_written data cs xs p hw
    obtain ⟨hlen, hat⟩ := (eq_sextetBytes_iff bs xs n).mp (Option.some.inj (h.symm.trans hbs))
    exact ⟨data, xs, p, hw, hlen ▸ hn, hat⟩
  · rintro ⟨data, xs, p, hw, hlen, hat⟩
    obtain ⟨n, hn, hbs⟩ := decodeBase64_of_written data cs xs p hw
    rw [hbs, (eq_sextetBytes_iff bs xs n).mpr ⟨by omega, hat⟩]

/-- A written text has the padding character at its end only. -/
theorem Base64Written.count_pad {cs data : List Char} {xs : List Nat} {p : Nat} (h : Base64Written cs data xs p) :
    cs.count '=' = p := by
  have hno : '=' ∉ data := by
    intro hmem
    have hnone : base64Digit '=' ∈ xs.map some := h.digits ▸ List.mem_map_of_mem hmem
    obtain ⟨x, -, hx⟩ := List.mem_map.mp hnone
    exact ne_pad_of_base64Digit '=' x hx.symm rfl
  simp [h.text, List.count_eq_zero.mpr hno]

theorem decodeBase64_length (cs : List Char) (bs : List Byte) (h : decodeBase64 cs = some bs) :
    cs.length % 4 = 0 ∧ bs.length + cs.count '=' = 3 * (cs.length / 4) := by
  obtain ⟨data, xs, p, hw, hlen, -⟩ := (decodeBase64_eq_some_iff cs bs).mp h
  exact ⟨hw.groups, hw.count_pad.symm ▸ hlen⟩

/-- The three bytes of a group are its 24 bits. -/
theorem groupBytes_three (x y z w : Nat) (hx : x < 64) (hy : y < 64) (hz : z < 64) (hw : w < 64) :
    ∃ b0 b1 b2 : Byte, groupBytes 3 x y z w = [b0, b1, b2] ∧
      b0.toNat * 65536 + b1.toNat * 256 + b2.toNat = ((x * 64 + y) * 64 + z) * 64 + w := by
  refine ⟨_, _, _, rfl, ?_⟩
  simp only [BitVec.extractLsb'_toNat, BitVec.toNat_ofNat, Nat.shiftRight_eq_div_pow]
  omega

/-- Settles O51: a text decodes exactly when it is written in the alphabet, and a group of four digits is its 24
bits. -/
theorem base64DecodingKeepsLengths : Obligations.Base64DecodingKeepsLengths := by
  refine ⟨fun cs bs => ?_, by decide, mem_of_base64Digit, decodeBase64_length, ?_⟩
  · rw [decodeBase64_eq_some_iff]
    constructor
    · rintro ⟨data, xs, p, ⟨hp, ht, hd, hg⟩, hlen, hat⟩
      exact ⟨data, xs, p, hp, ht, hd, hg, hlen, hat⟩
    · rintro ⟨data, xs, p, hp, ht, hd, hg, hlen, hat⟩
      exact ⟨data, xs, p, ⟨hp, ht, hd, hg⟩, hlen, hat⟩
  · intro a b c d x y z w ha hb hc hd
    obtain ⟨b0, b1, b2, hbs, hv⟩ := groupBytes_three x y z w (base64Digit_lt a x ha) (base64Digit_lt b y hb)
      (base64Digit_lt c z hc) (base64Digit_lt d w hd)
    refine ⟨b0, b1, b2, ?_, hv⟩
    rw [decodeBase64_group a b c d [] x y z w ha hb hc hd, hbs]
    rfl

/-! ### The length check and the two entry points (R101, R104) -/

theorem tenBytes_of_length_ne (bs : List Byte) (h : bs.length ≠ 10) : tenBytes bs = .error .invalidLength := by
  simp [tenBytes, h]

theorem tenBytes_of_length (bs : List Byte) (h : bs.length = 10) : ∃ b, tenBytes bs = .ok b ∧ b.toList = bs :=
  ⟨⟨bs.toArray, by simpa using h⟩, dif_pos h, rfl⟩

/-- Settles O49: a present input meets the length check and nothing else. -/
theorem keyFromBytesChecksPresenceThenLength : Obligations.KeyFromBytesChecksPresenceThenLength :=
  ⟨rfl, tenBytes_of_length_ne, tenBytes_of_length⟩

/-- A non-empty string that does not decode. -/
theorem keyFromString_of_decode_none (s : String) (f : KeyFormat) (hs : s.toList ≠ [])
    (hd : decodeKeyText f s.toList = none) : keyFromString (some s) f = .error .formatError := by
  obtain ⟨ch, cs, hs⟩ := List.exists_cons_of_ne_nil hs
  rw [hs] at hd
  simp [keyFromString, hs, hd]

/-- The bytes of a non-empty string that decodes meet the length check. -/
theorem keyFromString_of_decode_some (s : String) (f : KeyFormat) (bs : List Byte) (hs : s.toList ≠ [])
    (hd : decodeKeyText f s.toList = some bs) : keyFromString (some s) f = tenBytes bs := by
  obtain ⟨ch, cs, hs⟩ := List.exists_cons_of_ne_nil hs
  rw [hs] at hd
  simp [keyFromString, hs, hd]

/-- Settles O52: presence first, then the decoder of the format, then the length check. -/
theorem keyFromStringReportsTheFirstError : Obligations.KeyFromStringReportsTheFirstError := by
  refine ⟨fun f => by cases f <;> simp, rfl, rfl, fun f => ⟨rfl, rfl, fun s hs => ⟨?_, fun bs hd => ?_⟩⟩⟩
  · exact keyFromString_of_decode_none s f hs
  · rw [keyFromString_of_decode_some s f bs hs hd]
    exact ⟨tenBytes_of_length_ne bs, tenBytes_of_length bs⟩

/-! ### The KEYLOAD of ten prepared bytes (R107) -/

/-- Packing puts byte `i` at K[i] (R20): with the bytes packed after it cut off, it is the last of those that stay. -/
theorem keyByte_packKey (b : KeyBytes) (i : Fin 10) : keyByte (packKey b) i = b[i] := by
  unfold keyByte packKey
  fin_cases i
  all_goals repeat rw [BitVec.extractLsb'_append_eq_of_le (by decide)]
  · exact BitVec.extractLsb'_eq_self
  all_goals exact (BitVec.extractLsb'_append_eq_of_add_le (by decide)).trans BitVec.extractLsb'_eq_self

/-- Settles O53: the key issued is the packed one, and packing puts every byte in its place. -/
theorem hostLoadsTheKeyOnlyAfterSuccess : Obligations.HostLoadsTheKeyOnlyAfterSuccess :=
  ⟨fun _ => rfl, fun b => ⟨packKey b, rfl, keyByte_packKey b⟩⟩

end Sys2Proof.Machine
end

/-! PROOFS. The command KEYLOAD (spec/40_key_material.md section 2). -/

section
namespace Sys2Proof.Machine

/-- The word of a KEYLOAD has OP 0x1 and the key as its payload (R73, R75). -/
theorem decode_encode_keyload (k : Key) : decode (encode (.keyload k)) = .ok (.keyload k) := by
  have hlt := k.isLt
  have hop : opField (encode (.keyload k)) = 1 := by
    apply BitVec.eq_of_toNat_eq
    rw [opField_toNat, encode_keyload_toNat]
    change (2 ^ 80 * 1 + k.toNat) / 2 ^ 80 = 1
    omega
  have hpay : payloadField (encode (.keyload k)) = k := by
    apply BitVec.eq_of_toNat_eq
    rw [payloadField_toNat, encode_keyload_toNat]
    omega
  rw [decode_of_op_keyload _ hop, hpay]

/-- Settles O18: KEYLOAD is the writes of KEY, KEY_VALID and the response register. -/
theorem keyloadLoadsTheKeyAndAnswersOk : Obligations.KeyloadLoadsTheKeyAndAnswersOk :=
  ⟨fun _ _ => rfl, decode_encode_keyload, acceptedWord_eq_none, decode_encode_keyload 0x1234567890abcdef0123,
    by decide⟩

/-- Performing a KEYLOAD loads the key and answers (OK, 0). -/
theorem next_of_exec_keyload (k : Key) (s t : State) (h : exec (.keyload k) s = .next t) :
    t = (s.loadKey k).respond .ok 0 := by
  simpa [exec, execKeyload] using h.symm

/-- Settles O22: loading a key and responding write no other register. -/
theorem keyloadFrame : Obligations.KeyloadFrame := by
  intro k s t h
  simp [next_of_exec_keyload k s t h]

/-- An idle engine that is offered a KEYLOAD accepts its word, loads the key and answers (OK, 0). -/
theorem step_of_offered_keyload (s : State) (k : Key) (ps : List Pins) (hb : s.busy = false)
    (hv : s.respValid = false) (hi : s.inputs = offer (encode (.keyload k)) :: ps) :
    s.acceptedWord = some (encode (.keyload k)) ∧ step s = .next ((s.afterEdge.loadKey k).respond .ok 0) := by
  have hp : s.pins = offer (encode (.keyload k)) := by simp [State.pins, hi]
  have hw : s.acceptedWord = some (encode (.keyload k)) :=
    (acceptedWord_eq_some s _).mpr ⟨by rw [hp]; rfl, hb, hv, by rw [hp]; rfl, by rw [hp]; rfl⟩
  exact ⟨hw, (step_of_accepted s _ hw).trans (accept_of_decode_ok _ _ _ (decode_encode_keyload k))⟩

/-- A run of three edges: its end, the words it accepts and the responses it hands over. -/
theorem run_three (s a b c : State) (h1 : step s = .next a) (h2 : step a = .next b) (h3 : step b = .next c) :
    steps 3 s = .next c ∧
    acceptedWords 3 s = s.acceptedWord.toList ++ (a.acceptedWord.toList ++ b.acceptedWord.toList) ∧
    takenResponses 3 s = s.takenResponse.toList ++ (a.takenResponse.toList ++ b.takenResponse.toList) := by
  simp [steps, acceptedWords, takenResponses, h1, h2, h3]

/-- Settles O24: a KEYLOAD overwrites all that an earlier one wrote, once the earlier response is taken. -/
theorem repeatedKeyloadKeepsOnlyTheLastKey : Obligations.RepeatedKeyloadKeepsOnlyTheLastKey := by
  constructor
  · intro s k1 k2 ps hb hv both last u
    obtain ⟨hw1, hs1⟩ := step_of_offered_keyload both k1 _ hb hv rfl
    have hs2 := step_of_taken ((both.afterEdge.loadKey k1).respond .ok 0) hb rfl rfl rfl
    obtain ⟨hw3, hs3⟩ := step_of_offered_keyload
      ((both.afterEdge.loadKey k1).respond .ok 0).afterEdge.takeResponse k2 ps hb rfl rfl
    obtain ⟨-, hlast⟩ := step_of_offered_keyload last k2 ps hb hv rfl
    obtain ⟨hrun, hacc, htaken⟩ := run_three both _ _ _ hs1 hs2 hs3
    refine ⟨hrun, hlast, ?_, ?_⟩
    · rw [hacc, hw1, hw3, acceptedWord_eq_none _ (.inr rfl)]
      rfl
    · rw [htaken, takenResponse_eq_none both hv]
      rfl
  · intro s t u k1 k2 ht hu
    obtain rfl := next_of_exec_keyload k1 s t ht
    obtain rfl := next_of_exec_keyload k2 _ u hu
    rfl

end Sys2Proof.Machine
end

/-! PROOFS. The legality check of a build and its S-box (spec/41_substitution_table.md R120, R124). -/

section
namespace Sys2Proof.Machine

/-- The entries of the table are the results of S-box reads. -/
theorem mem_sbox_iff_sboxRead (c : Config) (b : Byte) : b ∈ c.sbox.toList ↔ ∃ a, sboxRead c a = b := by
  rw [Vector.mem_toList_iff, Vector.mem_iff_getElem]
  constructor
  · rintro ⟨i, hi, rfl⟩
    exact ⟨BitVec.ofFin ⟨i, hi⟩, rfl⟩
  · rintro ⟨a, rfl⟩
    exact ⟨a.toNat, a.isLt, rfl⟩

/-- A build is legal when every byte is the result of an S-box read. -/
theorem legal_iff_surjective (c : Config) : c.legal = true ↔ Function.Surjective (sboxRead c) :=
  (isPermutation_iff_mem c.sbox).trans (forall_congr' (mem_sbox_iff_sboxRead c))

/-- A legal build starts in its reset state. -/
theorem configured_of_legal (c : Config) (h : c.legal = true) : State.configured c = .next (State.afterReset c) :=
  if_pos h

/-- A build whose S-box is no permutation is refused by name. -/
theorem configured_of_not_legal (c : Config) (h : c.legal = false) :
    State.configured c = .refused .sboxNotPermutation :=
  if_neg (Bool.eq_false_iff.mp h)

/-- Settles O48: the check asks that S-box reads reach every byte, which on the finite set of bytes is bijectivity. -/
theorem permutationCheckMeansABijection : Obligations.PermutationCheckMeansABijection := fun c =>
  ⟨(legal_iff_surjective c).trans Finite.surjective_iff_bijective,
    configured_of_legal c, configured_of_not_legal c⟩

end Sys2Proof.Machine
end

/-! PROOFS. Key select and the G-box (spec/42_round_function.md R131, R132, R134). -/

section
namespace Sys2Proof.Machine

/-! ### Key select (R131) -/

/-- Five more rounds read 20 key bytes further, which is the same byte modulo 10. -/
theorem keyIndex_add_five (r j : Nat) : keyIndex (r + 5) j = keyIndex r j := by
  apply Fin.ext
  change (4 * (r + 5) + j) % 10 = (4 * r + j) % 10
  omega

theorem roundKey_add_five (k : Key) (r : Nat) : roundKey k (r + 5) = roundKey k r := by
  simp only [roundKey, keyIndex_add_five]

theorem roundKey_mod_five (k : Key) (r : Nat) : roundKey k (r % 5) = roundKey k r :=
  Function.Periodic.map_mod_nat (roundKey_add_five k) r

/-- The round key of a round is that of its row of the table. -/
theorem roundKey_of_mod_five (k : Key) {r row : Nat} (h : r % 5 = row) : roundKey k r = roundKey k row := by
  rw [← h, roundKey_mod_five]

/-- Settles O8: the key schedule has period 5, and the round keys of rounds 0 to 4 evaluate to the rows of the table. -/
theorem keyScheduleHasPeriodFive : Obligations.KeyScheduleHasPeriodFive := fun k r _ =>
  ⟨roundKey_of_mod_five k, roundKey_of_mod_five k, roundKey_of_mod_five k, roundKey_of_mod_five k,
    roundKey_of_mod_five k, fun _ => roundKey_add_five k r⟩

/-! ### The G-box (R132, R134) -/

/-- Settles O9: the model's G-box is R132 line by line. -/
theorem gBoxIsFourChainedLookups : Obligations.GBoxIsFourChainedLookups := fun _ _ _ _ => rfl

/-- A half as the pair of its high and low byte (R55). -/
def halfBytes : Half ≃ Byte × Byte where
  toFun w := (hb w, lb w)
  invFun p := joinBytes p.1 p.2
  left_inv := joinBytes_hb_lb
  right_inv p := Prod.ext (hb_joinBytes p.1 p.2) (lb_joinBytes p.1 p.2)

/-- One lookup of the chain, which takes the bytes (g1, g2) to (g2, g3) with g3 = S[g2 ^ key] ^ g1. Whatever the S-box
holds it is undone by g1 = S[g2 ^ key] ^ g3 (R134), because g2 stays. -/
def lookupStep (c : Config) (key : Byte) : Byte × Byte ≃ Byte × Byte where
  toFun p := (p.2, sboxRead c (p.2 ^^^ key) ^^^ p.1)
  invFun q := (sboxRead c (q.1 ^^^ key) ^^^ q.2, q.1)
  left_inv p := by simp
  right_inv q := by simp

/-- The G-box is the chain of four lookups on the bytes of the half. -/
theorem gBoxWith_eq_lookupSteps (c : Config) (rk : RoundKey) :
    gBoxWith c rk = halfBytes.trans ((lookupStep c rk.k1).trans ((lookupStep c rk.k2).trans
      ((lookupStep c rk.k3).trans ((lookupStep c rk.k4).trans halfBytes.symm)))) := rfl

theorem gBoxWith_bijective (c : Config) (rk : RoundKey) : Function.Bijective (gBoxWith c rk) := by
  rw [gBoxWith_eq_lookupSteps]
  exact Equiv.bijective _

/-- Settles O10: each of the four lookups can be undone, so the chain can. -/
theorem gBoxIsABijection : Obligations.GBoxIsABijection := fun c k r => gBoxWith_bijective c (roundKey k r)

end Sys2Proof.Machine
end

/-! PROOFS. Every edge keeps the invariant (spec/43_feistel_engine.md R151, R152, spec/44_cipher_commands.md R170, R171,
spec/60_exceptions.md R200, R215). -/

section
namespace Sys2Proof.Machine

/-! ### The writes of the rules -/

/-- The host's levels are no part of the invariant. -/
theorem State.Inv.afterEdge {s : State} (h : s.Inv) : s.afterEdge.Inv := { h with }

/-- On an engine that is not busy the invariant asks of a response only a produced code, and DATA 0 with an error. -/
theorem inv_respond (s : State) (hb : s.busy = false) (st : Status) (d : Word) (hst : st ≠ .reserved)
    (hd : st ≠ .ok → d = 0) : (s.respond st d).Inv where
  busy_has_key := by simp [hb]
  busy_no_response := by simp [hb]
  busy_round := by simp [hb]
  response_code _ := hst
  error_data _ := hd

theorem inv_raiseError (s : State) (hb : s.busy = false) (e : EngineError) : (s.raiseError e).Inv :=
  inv_respond s hb e.status 0 (by cases e <;> decide) fun _ => rfl

/-- An operation started with a key and without a waiting response, at a round in range. -/
theorem inv_startOperation (s : State) (hk : s.keyValid = true) (hv : s.respValid = false) (h : Halves) (r : BitVec 5)
    (dir : Dir) (hr : r.toNat < Config.rounds) : (s.startOperation h r dir).Inv where
  busy_has_key _ := hk
  busy_no_response _ := hv
  busy_round _ := hr
  response_code := by simp [hv]
  error_data := by simp [hv]

/-- The last round step leaves the engine with an OK response, and any other keeps ROUND in range. -/
theorem State.Inv.afterRound {s : State} (h : s.Inv) (hb : s.busy = true) : s.afterRound.Inv := by
  cases hl : s.lastRound with
  | true =>
    rw [afterRound_last s hl]
    exact inv_respond _ rfl .ok _ (by decide) (by simp)
  | false =>
    have hr := afterRound_round_lt s (h.busy_round hb) hl
    rw [afterRound_not_last s hl] at hr ⊢
    exact { h with busy_round := fun _ => hr }

/-! ### The acceptance edge and the step -/

/-- A command performed on an idle engine leaves a response, or an operation at its first round. -/
theorem inv_of_exec (i : Instr) (s t : State) (hb : s.busy = false) (hv : s.respValid = false)
    (h : exec i s = .next t) : t.Inv := by
  rcases exec_next_cases i s t h with ⟨k, -, rfl⟩ | ⟨-, -, rfl⟩ | ⟨hk, d, -, rfl⟩ | ⟨hk, d, -, rfl⟩
  · exact inv_respond (s.loadKey k) hb .ok 0 (by decide) fun _ => rfl
  · exact inv_raiseError s hb .noKey
  · exact inv_startOperation s hk hv _ 0 .forward (by decide)
  · exact inv_startOperation s hk hv _ 23 .inverse (by decide)

theorem inv_of_accept (w : CmdWord) (s t : State) (hb : s.busy = false) (hv : s.respValid = false)
    (h : accept w s = .next t) : t.Inv := by
  rcases accept_next_cases w s t h with ⟨i, -, hi⟩ | ⟨-, rfl⟩
  · exact inv_of_exec i s t hb hv hi
  · exact inv_raiseError s hb .illegalCmd

/-- Settles O34: each of the six things an edge can do leaves the engine idle, keeps what the invariant speaks of, or
is a round step or an acceptance. -/
theorem everyStepKeepsTheInvariant : Obligations.EveryStepKeepsTheInvariant := by
  intro s t hs h
  rcases step_next_cases s t h with ⟨-, rfl⟩ | ⟨-, hb, -, rfl⟩ | ⟨-, hb, -, -, rfl⟩ | ⟨-, -, -, -, rfl⟩ |
    ⟨-, hb, hv, -, ha⟩ | ⟨-, -, -, -, rfl⟩
  · exact inv_of_idle _ rfl rfl
  · exact hs.afterEdge.afterRound hb
  · exact inv_of_idle _ hb rfl
  · exact hs.afterEdge
  · exact inv_of_accept _ s.afterEdge t hb hv ha
  · exact hs.afterEdge

end Sys2Proof.Machine
end

/-! PROOFS. The Feistel engine: round steps, half mappings and the two transforms (spec/43_feistel_engine.md R140 to
R158). -/

section
namespace Sys2Proof.Machine

/-! ### The tweak and the half mappings of each round form (R140, R146 to R149) -/

section
variable (c : Config)

theorem tweak_doc (hf : c.roundForm = .doc) (r : Nat) : tweak c r = 0 := by
  simp [tweak, hf]

theorem tweak_skip32Ref (hf : c.roundForm = .skip32Ref) (r : Nat) : tweak c r = BitVec.ofNat 16 r := by
  simp [tweak, hf]

theorem encIn_doc (hf : c.roundForm = .doc) (x : Word) : encIn c x = ⟨hi16 x, lo16 x⟩ := by
  simp [encIn, hf]

theorem encIn_skip32Ref (hf : c.roundForm = .skip32Ref) (x : Word) : encIn c x = ⟨lo16 x, hi16 x⟩ := by
  simp [encIn, hf]

theorem decOut_doc (hf : c.roundForm = .doc) (h : Halves) : decOut c h = join h.left h.right := by
  simp [decOut, hf]

theorem decOut_skip32Ref (hf : c.roundForm = .skip32Ref) (h : Halves) : decOut c h = join h.right h.left := by
  simp [decOut, hf]

@[simp] theorem decOut_encIn (x : Word) : decOut c (encIn c x) = x := by
  cases hf : c.roundForm with
  | doc => simp [encIn_doc c hf, decOut_doc c hf]
  | skip32Ref => simp [encIn_skip32Ref c hf, decOut_skip32Ref c hf]

@[simp] theorem encIn_decOut (h : Halves) : encIn c (decOut c h) = h := by
  cases hf : c.roundForm with
  | doc => simp [encIn_doc c hf, decOut_doc c hf]
  | skip32Ref => simp [encIn_skip32Ref c hf, decOut_skip32Ref c hf]

@[simp] theorem decIn_encOut (h : Halves) : decIn (encOut h) = h := by
  simp [decIn, encOut]

@[simp] theorem encOut_decIn (y : Word) : encOut (decIn y) = y := by
  simp [decIn, encOut]

end

/-- Settles O11: the model's round steps are R141 and R142 line by line, and a round index fits 16 bits. -/
theorem roundStepsFollowTheirFormulas : Obligations.RoundStepsFollowTheirFormulas := by
  refine fun c k r l rt hr => ⟨fun hf => tweak_doc c hf r, fun hf => ?_, rfl, rfl⟩
  rw [tweak_skip32Ref c hf, BitVec.toNat_ofNat]
  omega

/-- Settles O13: the mappings of each round form, and their cancellations. -/
theorem halfMappingsFollowTheirFormulas : Obligations.HalfMappingsFollowTheirFormulas := fun c x h =>
  ⟨fun hf => ⟨encIn_doc c hf x, decOut_doc c hf h⟩, fun hf => ⟨encIn_skip32Ref c hf x, decOut_skip32Ref c hf h⟩,
    rfl, rfl, decOut_encIn c x, decIn_encOut h⟩

/-! ### The round steps and the transforms undo each other (R143, R154, R155) -/

section
variable (c : Config) (k : Key)

/-- One half passes through FR unchanged, so the same mask is there to be XORed away. -/
@[simp] theorem inverseRound_forwardRound (r : Nat) (h : Halves) :
    inverseRound c k r (forwardRound c k r h) = h := by
  simp [inverseRound, forwardRound]

@[simp] theorem forwardRound_inverseRound (r : Nat) (h : Halves) :
    forwardRound c k r (inverseRound c k r h) = h := by
  simp [inverseRound, forwardRound]

/-- Inverse rounds in the opposite order undo forward rounds. -/
@[simp] theorem inverseRounds_reverse_forwardRounds (rs : List Nat) (h : Halves) :
    inverseRounds c k rs.reverse (forwardRounds c k rs h) = h := by
  induction rs generalizing h with
  | nil => rfl
  | cons r rs ih => simp [forwardRounds_cons, inverseRounds_concat, ih]

/-- Forward rounds in the opposite order undo inverse rounds. -/
@[simp] theorem forwardRounds_inverseRounds_reverse (rs : List Nat) (h : Halves) :
    forwardRounds c k rs (inverseRounds c k rs.reverse h) = h := by
  induction rs with
  | nil => rfl
  | cons r rs ih => simp [forwardRounds_cons, inverseRounds_concat, ih]

theorem feistelDec_leftInverse : Function.LeftInverse (feistelDec c k) (feistelEnc c k) := fun x => by
  simp [feistelEnc, feistelDec]

theorem feistelDec_rightInverse : Function.RightInverse (feistelDec c k) (feistelEnc c k) := fun y => by
  simp [feistelEnc, feistelDec]

end

/-- Settles O12: each round step undoes the other. -/
theorem roundStepsUndoEachOther : Obligations.RoundStepsUndoEachOther := fun c k r h =>
  ⟨inverseRound_forwardRound c k r h, forwardRound_inverseRound c k r h⟩

/-- Settles O14: the half mappings cancel, and the rounds cancel in the opposite order. -/
theorem decryptAndEncryptUndoEachOther : Obligations.DecryptAndEncryptUndoEachOther := fun c k x =>
  ⟨feistelDec_leftInverse c k x, feistelDec_rightInverse c k x⟩

/-- Settles O15: a function with a two-sided inverse is a bijection, and so is that inverse. -/
theorem encryptIsABijection : Obligations.EncryptIsABijection := fun c k =>
  have hl := feistelDec_leftInverse c k
  have hr := feistelDec_rightInverse c k
  ⟨⟨hl.injective, hr.surjective⟩, ⟨hr.injective, hl.surjective⟩, hl, hr⟩

/-! ### The published reference function (R156) -/

/-- The engine's halves for the reference's variables while it encrypts: `wr` is the left half. -/
def RefVars.forwardHalves (v : RefVars) : Halves := ⟨v.wr, v.wl⟩

/-- The engine's halves for the reference's variables while it decrypts: `wl` is the left half. -/
def RefVars.inverseHalves (v : RefVars) : Halves := ⟨v.wl, v.wr⟩

section
variable (c : Config) (k : Key) (hf : c.roundForm = .skip32Ref)
include hf

/-- One pass of the reference's loop, counting up, is two forward rounds. -/
theorem refDoubleRound_encrypt (v : RefVars) :
    (refDoubleRound c k true v).forwardHalves =
      forwardRound c k (v.k + 1) (forwardRound c k v.k v.forwardHalves) := by
  simp [forwardRound, refDoubleRound, refStep, RefVars.forwardHalves, tweak_skip32Ref c hf, BitVec.xor_assoc]

/-- One pass of the reference's loop, counting down, is two inverse rounds. -/
theorem refDoubleRound_decrypt (v : RefVars) :
    (refDoubleRound c k false v).inverseHalves =
      inverseRound c k (v.k - 1) (inverseRound c k v.k v.inverseHalves) := by
  simp [inverseRound, refDoubleRound, refStep, RefVars.inverseHalves, tweak_skip32Ref c hf, BitVec.xor_assoc]

/-- `n` passes counting up are the `2 * n` forward rounds from the counter on. -/
theorem refLoop_encrypt (n : Nat) (v : RefVars) :
    (refLoop c k true n v).forwardHalves = forwardRounds c k (List.range' v.k (2 * n)) v.forwardHalves := by
  induction n generalizing v with
  | zero => rfl
  | succ n ih =>
    have hk : (refDoubleRound c k true v).k = v.k + 2 := rfl
    rw [refLoop, ih, hk, refDoubleRound_encrypt c k hf, Nat.mul_succ, List.range'_succ, List.range'_succ,
      forwardRounds_cons, forwardRounds_cons]

/-- `n` passes counting down from `2 * n - 1` are the inverse rounds from there to 0. -/
theorem refLoop_decrypt (n : Nat) (v : RefVars) (hk : v.k = 2 * n - 1) :
    (refLoop c k false n v).inverseHalves = inverseRounds c k (List.range (2 * n)).reverse v.inverseHalves := by
  induction n generalizing v with
  | zero => rfl
  | succ n ih =>
    have hk' : (refDoubleRound c k false v).k = 2 * n - 1 := by
      change v.k - 1 - 1 = 2 * n - 1
      omega
    have hrs : (List.range (2 * (n + 1))).reverse = v.k :: (v.k - 1) :: (List.range (2 * n)).reverse := by
      simp [hk, Nat.mul_succ, List.range_succ]
    rw [refLoop, ih _ hk', refDoubleRound_decrypt c k hf, hrs, inverseRounds_cons, inverseRounds_cons]

theorem feistelEnc_eq_skip32Ref (x : Word) : feistelEnc c k x = skip32Ref c k x true := by
  have hloop := refLoop_encrypt c k hf 12 ⟨hi16 x, lo16 x, 0⟩
  calc feistelEnc c k x
      = encOut (forwardRounds c k (List.range' 0 (2 * 12)) ⟨lo16 x, hi16 x⟩) := by
        rw [feistelEnc, encIn_skip32Ref c hf, List.range_eq_range', Config.rounds]
    _ = encOut (refLoop c k true 12 ⟨hi16 x, lo16 x, 0⟩).forwardHalves := by rw [hloop, RefVars.forwardHalves]
    _ = skip32Ref c k x true := by simp only [skip32Ref, encOut, RefVars.forwardHalves, if_true]

theorem feistelDec_eq_skip32Ref (y : Word) : feistelDec c k y = skip32Ref c k y false := by
  have hloop := refLoop_decrypt c k hf 12 ⟨hi16 y, lo16 y, 23⟩ rfl
  calc feistelDec c k y
      = decOut c (inverseRounds c k (List.range (2 * 12)).reverse ⟨hi16 y, lo16 y⟩) := by
        rw [feistelDec, decIn, Config.rounds]
    _ = decOut c (refLoop c k false 12 ⟨hi16 y, lo16 y, 23⟩).inverseHalves := by rw [hloop, RefVars.inverseHalves]
    _ = skip32Ref c k y false := by
        simp only [skip32Ref, decOut_skip32Ref c hf, RefVars.inverseHalves, Bool.false_eq_true, if_false]

end

/-- Settles O16: the reference's loop, two rounds a pass, is the engine's rounds in either direction. -/
theorem referenceFormIsThePublishedCipher : Obligations.ReferenceFormIsThePublishedCipher := fun c k x hf =>
  ⟨feistelEnc_eq_skip32Ref c k hf x, feistelDec_eq_skip32Ref c k hf x⟩

/-! ### Keys of ten equal bytes (R158) -/

/-- The two halves in the other order. -/
def Halves.swap (h : Halves) : Halves := ⟨h.right, h.left⟩

theorem encOut_swap (h : Halves) : encOut h.swap = swapHalves (encOut h) := by
  simp [encOut, Halves.swap, swapHalves]

theorem decIn_swapHalves (y : Word) : decIn (swapHalves y) = (decIn y).swap := by
  simp [decIn, Halves.swap, swapHalves]

section
variable (c : Config) (k : Key) (b : Byte) (hb : ∀ i : Fin 10, keyByte k i = b)
include hb

/-- Key select reads the same four bytes in every round. -/
theorem gBox_eq_of_equal_bytes (w : Half) (r r' : Nat) : gBox c k w r = gBox c k w r' := by
  simp [gBox, roundKey, hb]

variable (hf : c.roundForm = .doc)
include hf

/-- Without a tweak and with one G-box, IR of any round is FR of any round between swaps. -/
theorem inverseRound_eq_swap_forwardRound (r r' : Nat) (h : Halves) :
    inverseRound c k r h = (forwardRound c k r' h.swap).swap := by
  simp [inverseRound, forwardRound, Halves.swap, tweak_doc c hf, gBox_eq_of_equal_bytes c k b hb _ r r']

/-- So only the number of rounds counts, and not their order. -/
theorem inverseRounds_eq_swap_forwardRounds (rs rs' : List Nat) (hlen : rs.length = rs'.length) (h : Halves) :
    inverseRounds c k rs h = (forwardRounds c k rs' h.swap).swap := by
  induction rs generalizing rs' h with
  | nil =>
    obtain rfl := List.length_eq_zero_iff.mp hlen.symm
    rfl
  | cons r rs ih =>
    obtain ⟨r', rs', rfl⟩ := List.exists_cons_of_length_eq_add_one hlen.symm
    rw [inverseRounds_cons, ih rs' (by simpa using hlen), inverseRound_eq_swap_forwardRound c k b hb hf r r']
    rfl

theorem feistelDec_eq_swapped_feistelEnc (y : Word) :
    feistelDec c k y = swapHalves (feistelEnc c k (swapHalves y)) := by
  have hrounds := inverseRounds_eq_swap_forwardRounds c k b hb hf (List.range Config.rounds).reverse
    (List.range Config.rounds) List.length_reverse (decIn y)
  calc feistelDec c k y
      = encOut (inverseRounds c k (List.range Config.rounds).reverse (decIn y)) := decOut_doc c hf _
    _ = swapHalves (encOut (forwardRounds c k (List.range Config.rounds) (decIn (swapHalves y)))) := by
        rw [hrounds, encOut_swap, decIn_swapHalves]
    _ = swapHalves (feistelEnc c k (swapHalves y)) := by rw [feistelEnc, encIn_doc c hf, decIn]

end

/-- Settles O17: with one G-box for all rounds and no tweak, IR is FR between swaps, and so are all 24 of them. -/
theorem equalKeyBytesMakeDecryptASwappedEncrypt : Obligations.EqualKeyBytesMakeDecryptASwappedEncrypt :=
  fun c k b hb => ⟨gBox_eq_of_equal_bytes c k b hb, feistelDec_eq_swapped_feistelEnc c k b hb⟩

end Sys2Proof.Machine
end

/-! PROOFS. The clock-edge round step, and how many of them ENC and DEC take (spec/43_feistel_engine.md R151, R157). -/

section
namespace Sys2Proof.Machine

section
variable (s : State) (hrst : s.pins.rst = false) (hb : s.busy = true)
include hrst hb

/-- Without reset the edge of a busy engine is a round step. -/
theorem step_eq_roundStep : step s = roundStep s.afterEdge := by
  simp [step, edge, hrst, hb]

variable (hr : s.round.toNat < Config.rounds)
include hr

/-- The edge of the last round writes the halves and the response, and clears BUSY. -/
theorem step_of_last_round (hl : s.lastRound = true) :
    step s = .next { s with
      left := s.roundHalves.left, right := s.roundHalves.right, busy := false, respValid := true, respStatus := .ok,
      respData := s.resultOf s.roundHalves, inputs := s.inputs.tail } := by
  rw [step_of_busy s hrst hb hr, afterRound_last s.afterEdge hl]
  rfl

/-- The edge of any other round writes the halves and moves ROUND on. -/
theorem step_of_inner_round (hl : s.lastRound = false) :
    step s = .next { s with
      left := s.roundHalves.left, right := s.roundHalves.right, round := s.nextRound,
      inputs := s.inputs.tail } := by
  rw [step_of_busy s hrst hb hr, afterRound_not_last s.afterEdge hl]
  rfl

end

/-- Settles O31: the two kinds of round step, read in each direction. -/
theorem busyEdgeMakesOneRoundStep : Obligations.BusyEdgeMakesOneRoundStep := by
  refine ⟨fun _ => rfl, fun s hrst hb hr => ?_⟩
  have hkinds := And.intro (step_of_last_round s hrst hb hr) (step_of_inner_round s hrst hb hr)
  constructor
  · intro hd
    simpa [State.lastRound, State.roundHalves, State.halves, State.resultOf, State.nextRound, hd] using hkinds
  · intro hd
    simpa [State.lastRound, State.roundHalves, State.halves, State.resultOf, State.nextRound, hd] using hkinds

/-- With a key the latency of ENC and DEC is P_LAT, whatever the key and the operand. -/
theorem latency_of_key (ks : KeyState) (w : CmdWord) (d : Word) (hk : ks.keyValid = true)
    (hw : decode w = .ok (.enc d) ∨ decode w = .ok (.dec d)) : latency ks w = Config.pLat := by
  rcases hw with hw | hw <;> simp [latency, hw, hk]

/-- Settles O42: after the acceptance edge the engine is P_LAT round steps away from its response, busy until then. -/
theorem cipherLatencyIsConstant : Obligations.CipherLatencyIsConstant := by
  intro s w d hw hk hn hd n hle
  cases n with
  | zero =>
    obtain ⟨-, hb, hv, -, -⟩ := (acceptedWord_eq_some s w).mp hw
    exact ⟨s, rfl, by simp [hv, Config.pLat], by simp [hb], by simp⟩
  | succ n =>
    obtain ⟨m, hm⟩ : ∃ m, Config.pLat = n + m := ⟨Config.pLat - n, by omega⟩
    obtain ⟨t, ht, ha⟩ := steps_of_accepted_answersIn n m s w hw hn ((latency_of_key s.keyState w d hk hd).trans hm)
    refine ⟨t, ht, ?_⟩
    simp only [Config.pLat] at hm ⊢
    cases m with
    | zero =>
      obtain ⟨hb, hv, -⟩ := ha.progress
      simp only [hb, hv, Bool.false_eq_true, true_iff, false_iff]
      omega
    | succ m =>
      obtain ⟨hb, hv, -, -, -⟩ := ha.progress
      have hstep := step_eq_roundStep t (noReset_pins t ha.noReset) hb
      refine ⟨?_, ?_, fun _ _ => hstep⟩
      · simp only [hv, Bool.false_eq_true, false_iff]
        omega
      · simp only [hb, true_iff]
        omega

end Sys2Proof.Machine
end

/-! PROOFS. The commands ENC and DEC: their words, their acceptance edge, and the round trips through them
(spec/44_cipher_commands.md). -/

section
namespace Sys2Proof

/-! ### The words of the commands decode to the commands (R73 to R76) -/

/-- The fields of a word that is OP and 32 DATA bits, with nothing between them. -/
theorem fields_of_toNat (w : CmdWord) (op : Nat) (d : Word) (h : w.toNat = 2 ^ 80 * op + d.toNat) :
    (opField w).toNat = op ∧ rsvdField w = 0 ∧ dataField w = d := by
  have hd := d.isLt
  refine ⟨?_, BitVec.eq_of_toNat_eq ?_, BitVec.eq_of_toNat_eq ?_⟩
  · rw [opField_toNat]
    omega
  · rw [rsvdField_toNat]
    change w.toNat / 2 ^ 32 % 2 ^ 48 = 0
    omega
  · rw [dataField_toNat]
    omega

theorem decode_encode_enc (d : Word) : decode (encode (.enc d)) = .ok (.enc d) := by
  obtain ⟨hop, hrsvd, hdata⟩ := fields_of_toNat _ 2 d (encode_enc_toNat d)
  rw [decode_of_op_enc _ (BitVec.eq_of_toNat_eq hop) hrsvd, hdata]

theorem decode_encode_dec (d : Word) : decode (encode (.dec d)) = .ok (.dec d) := by
  obtain ⟨hop, hrsvd, hdata⟩ := fields_of_toNat _ 3 d (encode_dec_toNat d)
  rw [decode_of_op_dec _ (BitVec.eq_of_toNat_eq hop) hrsvd, hdata]

end Sys2Proof

namespace Sys2Proof.Machine

/-! ### The acceptance edge (R170, R171) -/

section
variable (d : Word) (s : State)

theorem exec_enc_of_key (hk : s.keyValid = true) :
    exec (.enc d) s = .next (s.startOperation (encIn s.cfg d) 0 .forward) := by
  simp [exec, execEnc, hk]

theorem exec_dec_of_key (hk : s.keyValid = true) :
    exec (.dec d) s = .next (s.startOperation (decIn d) 23 .inverse) := by
  simp [exec, execDec, hk]

/-- Either command is the key check, and then an operation that starts. -/
theorem next_of_exec_enc_or_dec (t : State) (h : exec (.enc d) s = .next t ∨ exec (.dec d) s = .next t) :
    ∃ x r dir, t = startOrNoKey s x r dir := by
  rcases h with h | h
  · exact ⟨encIn s.cfg d, 0, .forward, by simpa [exec, execEnc] using h.symm⟩
  · exact ⟨decIn d, 23, .inverse, by simpa [exec, execDec] using h.symm⟩

end

/-- Settles O19: ENC starts an operation on the halves of ENC_IN, which the round form gives. -/
theorem encWithAKeyStartsTheForwardRounds : Obligations.EncWithAKeyStartsTheForwardRounds := by
  intro d s hk
  rw [exec_enc_of_key d s hk]
  exact ⟨fun hf => by rw [encIn_doc s.cfg hf]; rfl, fun hf => by rw [encIn_skip32Ref s.cfg hf]; rfl⟩

/-- Settles O20: DEC starts an operation on the halves of DEC_IN. -/
theorem decWithAKeyStartsTheInverseRounds : Obligations.DecWithAKeyStartsTheInverseRounds := exec_dec_of_key

/-- Settles O23: starting an operation writes no key and no response, and NO_KEY writes the response only. -/
theorem cipherCommandFrame : Obligations.CipherCommandFrame := by
  intro d s t h
  obtain ⟨x, r, dir, rfl⟩ := next_of_exec_enc_or_dec d s t h
  cases hk : s.keyValid with
  | false => simp [hk]
  | true => simp [hk]

/-! ### The transaction level of the three commands (R108, R170, R171, R174) -/

section
variable (c : Config) (ks : KeyState) (k : Key) (d : Word)

@[simp] theorem answer_encode_keyload : answer c ks (encode (.keyload k)) = (.ok, 0) := by
  simp [answer, decode_encode_keyload]

@[simp] theorem answer_encode_enc : answer c ⟨k, true⟩ (encode (.enc d)) = (.ok, feistelEnc c k d) := by
  simp [answer, decode_encode_enc]

@[simp] theorem answer_encode_dec : answer c ⟨k, true⟩ (encode (.dec d)) = (.ok, feistelDec c k d) := by
  simp [answer, decode_encode_dec]

@[simp] theorem keyAfter_encode_keyload : keyAfter ks (encode (.keyload k)) = ⟨k, true⟩ := by
  simp [keyAfter, decode_encode_keyload]

@[simp] theorem keyAfter_encode_enc : keyAfter ks (encode (.enc d)) = ks := by
  simp [keyAfter, decode_encode_enc]

@[simp] theorem keyAfter_encode_dec : keyAfter ks (encode (.dec d)) = ks := by
  simp [keyAfter, decode_encode_dec]

end

/-- Settles O46: KEYLOAD sets the key, the two commands keep it, and under one key they undo each other. -/
theorem encThenDecAnswersThePlaintext : Obligations.EncThenDecAnswersThePlaintext := by
  intro c ks k x
  have hdec : feistelDec c k (feistelEnc c k x) = x := feistelDec_leftInverse c k x
  have henc : feistelEnc c k (feistelDec c k x) = x := feistelDec_rightInverse c k x
  exact ⟨by simp [answers, hdec], by simp [answers, henc], by simp [keyAfterAll], by simp [keyAfterAll]⟩

/-! ### Encrypt and Decrypt on int32 (R172) -/

section
variable (c : Config) (k : Key) (v : Int)

/-- Encrypt answers the int32 whose pattern is the ciphertext. -/
theorem ofInt_encryptInt : BitVec.ofInt 32 (encryptInt c k v) = feistelEnc c k (BitVec.ofInt 32 v) :=
  BitVec.ofInt_toInt

/-- Decrypt answers the int32 whose pattern is the plaintext. -/
theorem ofInt_decryptInt : BitVec.ofInt 32 (decryptInt c k v) = feistelDec c k (BitVec.ofInt 32 v) :=
  BitVec.ofInt_toInt

/-- Decrypt undoes Encrypt up to reading the pattern of `v` as an int32. -/
theorem decryptInt_encryptInt : decryptInt c k (encryptInt c k v) = (BitVec.ofInt 32 v).toInt := by
  rw [decryptInt, ofInt_encryptInt, feistelDec_leftInverse]

/-- Encrypt undoes Decrypt up to reading the pattern of `v` as an int32. -/
theorem encryptInt_decryptInt : encryptInt c k (decryptInt c k v) = (BitVec.ofInt 32 v).toInt := by
  rw [encryptInt, ofInt_decryptInt, feistelDec_rightInverse]

end

/-- Settles O47: a pattern read as an int32 is in range and reads back, and the transforms undo each other. -/
theorem intViewRoundTrips : Obligations.IntViewRoundTrips := by
  intro c k v hlo hhi
  have hv : (BitVec.ofInt 32 v).toInt = v := BitVec.toInt_ofInt_eq_self (by decide) hlo hhi
  refine ⟨?_, ?_, ⟨BitVec.le_toInt _, BitVec.toInt_lt⟩, ⟨BitVec.le_toInt _, BitVec.toInt_lt⟩, ?_, ?_⟩
  · rw [answer_encode_enc, ofInt_encryptInt]
  · rw [answer_encode_dec, ofInt_decryptInt]
  · rw [decryptInt_encryptInt, hv]
  · rw [encryptInt_decryptInt, hv]

end Sys2Proof.Machine
end

/-! PROOFS. When an edge stops, the two error responses, and the codes a host reads (spec/60_exceptions.md). -/

section
namespace Sys2Proof.Machine

/-! ### Which edges answer a next state, and what a stop means (R200) -/

theorem step_of_reset (s : State) (hrst : s.pins.rst = true) : step s = .next s.afterEdge.resetFlags := by
  simp [step, edge, hrst]

/-- Every edge but a round step answers a next state. -/
theorem step_answers_of_no_round_step (s : State) (h : s.pins.rst = false → s.busy = false) :
    ∃ t, step s = .next t := by
  cases hrst : s.pins.rst with
  | true => exact ⟨_, step_of_reset s hrst⟩
  | false =>
    have hb := h hrst
    cases hv : s.respValid with
    | true =>
      cases hp : s.pins.rspReady with
      | true => exact ⟨_, step_of_taken s hb hrst hv hp⟩
      | false => exact ⟨_, step_of_not_taken s hb hrst hv hp⟩
    | false =>
      cases hw : s.acceptedWord with
      | some w => exact step_of_accepted s w hw ▸ accept_answers w s.afterEdge
      | none =>
        obtain ⟨-, t, ht, -⟩ := step_of_idle_of_none s hb hv hw
        exact ⟨t, ht⟩

theorem step_not_fault (s : State) (f : Fault) : step s ≠ .fault f := by
  by_cases hround : s.pins.rst = false ∧ s.busy = true
  · obtain ⟨hrst, hb⟩ := hround
    rw [step_eq_roundStep s hrst hb]
    exact roundStep_not_fault s.afterEdge f
  · obtain ⟨t, ht⟩ := step_answers_of_no_round_step s (by simpa using hround)
    simp [ht]

theorem step_refused_iff (s : State) (r : Refusal) : step s = .refused r ↔
    s.pins.rst = false ∧ s.busy = true ∧ Config.rounds ≤ s.round.toNat ∧ r = .roundOutOfRange := by
  by_cases hround : s.pins.rst = false ∧ s.busy = true
  · obtain ⟨hrst, hb⟩ := hround
    rw [step_eq_roundStep s hrst hb, roundStep_refused_iff]
    simp [hrst, hb]
  · obtain ⟨t, ht⟩ := step_answers_of_no_round_step s (by simpa using hround)
    have hno : ¬ (s.pins.rst = false ∧ s.busy = true ∧ Config.rounds ≤ s.round.toNat ∧ r = .roundOutOfRange) :=
      fun ⟨hrst, hb, _⟩ => hround ⟨hrst, hb⟩
    simp [ht, hno]

/-- Settles O32: only a round step can stop, and it is refused exactly with ROUND out of range. -/
theorem roundOutOfRangeIsTheOnlyStop : Obligations.RoundOutOfRangeIsTheOnlyStop :=
  ⟨step_not_fault, step_refused_iff⟩

/-- The invariant keeps ROUND in range while BUSY, so the one refusal of a step cannot come. -/
theorem State.Inv.step_answers {s : State} (h : s.Inv) : ∃ t, step s = .next t := by
  cases hs : step s with
  | next t => exact ⟨t, rfl⟩
  | fault f => exact absurd hs (step_not_fault s f)
  | refused r =>
    obtain ⟨-, hb, hr, -⟩ := (step_refused_iff s r).mp hs
    exact absurd (h.busy_round hb) (Nat.not_lt.mpr hr)

/-- Settles O35, by induction on the number of edges: each answers a next state, and it meets the invariant again. -/
theorem runsFromTheInvariantNeverStop : Obligations.RunsFromTheInvariantNeverStop := by
  intro n
  induction n with
  | zero => exact fun s hs => ⟨s, rfl, hs⟩
  | succ n ih =>
    intro s hs
    obtain ⟨u, hu⟩ := hs.step_answers
    rw [steps_succ_of_step n s u hu]
    exact ih u (everyStepKeepsTheInvariant s u hs hu)

/-! ### The two errors (R201, R202) -/

theorem exec_enc_of_noKey (d : Word) (s : State) (hk : s.keyValid = false) :
    exec (.enc d) s = .next (s.raiseError .noKey) := by
  simp [exec, execEnc, hk]

theorem exec_dec_of_noKey (d : Word) (s : State) (hk : s.keyValid = false) :
    exec (.dec d) s = .next (s.raiseError .noKey) := by
  simp [exec, execDec, hk]

/-- Settles O21: without a key either command raises NO_KEY. -/
theorem encAndDecWithoutAKeyAnswerNoKey : Obligations.EncAndDecWithoutAKeyAnswerNoKey :=
  fun d s hk => ⟨exec_enc_of_noKey d s hk, exec_dec_of_noKey d s hk⟩

/-- Settles O26: a ready engine accepts the word it is offered, and an illegal word raises ILLEGAL_CMD. -/
theorem illegalWordIsAnsweredWithIllegalCmd : Obligations.IllegalWordIsAnsweredWithIllegalCmd :=
  fun s e hr hc he => (step_of_ready s hr hc).trans (accept_of_decode_error s.pins.cmdWord e s.afterEdge he)

/-! ### STATUS code 3 (R215) -/

theorem EngineError.status_ne_reserved (e : EngineError) : e.status ≠ .reserved := by
  cases e <;> decide

/-- A round step writes the code OK, or none. -/
theorem afterRound_respStatus (s : State) :
    s.afterRound.respStatus = if s.lastRound then .ok else s.respStatus := by
  cases hl : s.lastRound with
  | true => simp [afterRound_last s hl]
  | false => simp [afterRound_not_last s hl]

/-- A command writes the code OK or NO_KEY, or none. -/
theorem reserved_of_exec (i : Instr) (s t : State) (h : exec i s = .next t) (ht : t.respStatus = .reserved) :
    s.respStatus = .reserved := by
  rcases exec_next_cases i s t h with ⟨k, -, rfl⟩ | ⟨-, -, rfl⟩ | ⟨-, d, -, rfl⟩ | ⟨-, d, -, rfl⟩
  · simp at ht
  · exact absurd ht (EngineError.status_ne_reserved .noKey)
  · exact ht
  · exact ht

/-- An accepted word writes a code its command writes, or ILLEGAL_CMD. -/
theorem reserved_of_accept (w : CmdWord) (s t : State) (h : accept w s = .next t) (ht : t.respStatus = .reserved) :
    s.respStatus = .reserved := by
  rcases accept_next_cases w s t h with ⟨i, -, hi⟩ | ⟨-, rfl⟩
  · exact reserved_of_exec i s t hi ht
  · exact absurd ht (EngineError.status_ne_reserved .illegalCmd)

/-- Only a last round step and an acceptance write RESP_STATUS, and neither writes the reserved code. -/
theorem reserved_of_step (s t : State) (h : step s = .next t) (ht : t.respStatus = .reserved) :
    s.respStatus = .reserved := by
  rcases step_next_cases s t h with ⟨-, rfl⟩ | ⟨-, -, -, rfl⟩ | ⟨-, -, -, -, rfl⟩ | ⟨-, -, -, -, rfl⟩ |
    ⟨-, -, -, -, ha⟩ | ⟨-, -, -, -, rfl⟩
  case inr.inl =>
    rw [afterRound_respStatus] at ht
    split at ht
    · simp at ht
    · exact ht
  case inr.inr.inr.inr.inl => exact reserved_of_accept s.pins.cmdWord s.afterEdge t ha ht
  all_goals exact ht

theorem readResponse_of_not_valid (s : State) (hv : s.respValid = false) : readResponse s = none := by
  simp [readResponse, hv]

theorem readResponse_of_produced (s : State) (hv : s.respValid = true) (hst : s.respStatus ≠ .reserved) :
    readResponse s = some (.ok (s.respStatus, s.respData)) := by
  cases hc : s.respStatus with
  | reserved => exact absurd hc hst
  | ok | noKey | illegalCmd => simp [readResponse, hv, hc]

theorem readResponse_of_reserved (s : State) (hv : s.respValid = true) (hst : s.respStatus = .reserved) :
    readResponse s = some (.error .reservedStatus) := by
  simp [readResponse, hv, hst]

/-- From the invariant a host reads nothing, or a response with a code the engine produces. -/
theorem State.Inv.readResponse_ne_error {s : State} (h : s.Inv) (f : Fault) : readResponse s ≠ some (.error f) := by
  cases hv : s.respValid with
  | false => simp [readResponse_of_not_valid s hv]
  | true => simp [readResponse_of_produced s hv (h.response_code hv)]

/-- Settles O39: no edge writes the reserved code, and a host reads what the response register holds. -/
theorem reservedStatusIsNeverProduced : Obligations.ReservedStatusIsNeverProduced :=
  ⟨reserved_of_step, readResponse_of_not_valid, readResponse_of_produced, fun _ f hs => hs.readResponse_ne_error f,
    readResponse_of_reserved⟩

end Sys2Proof.Machine
end

/-! PROOFS. Reset, the fastest issue of a command stream, and liveness (spec/70_reset_and_hazards.md R230 to R233, R240,
R241). -/

section
namespace Sys2Proof.Machine

/-- The words accepted at one edge and then in the rest of a run. -/
theorem acceptedWords_succ_of_step (n : Nat) (s t : State) (h : step s = .next t) :
    acceptedWords (n + 1) s = s.acceptedWord.toList ++ acceptedWords n t := by
  simp [acceptedWords, h]

/-- The responses taken at one edge and then in the rest of a run. -/
theorem takenResponses_succ_of_step (n : Nat) (s t : State) (h : step s = .next t) :
    takenResponses (n + 1) s = s.takenResponse.toList ++ takenResponses n t := by
  simp [takenResponses, h]

/-! ### Reset (R230 to R233) -/

/-- Under reset, or offered nothing, an engine accepts nothing (R71). -/
theorem acceptedWord_eq_none_of_quiet (s : State) (h : s.pins.rst = true ∨ s.pins.cmdValid = false) :
    s.acceptedWord = none := by
  rcases h with h | h <;> simp [State.acceptedWord, State.cmdReady, h]

/-- When the coming levels are quiet, so is the next edge: its levels head the list, or the host is idle. -/
theorem pins_quiet (n : Nat) (s : State)
    (h : ∀ p ∈ s.inputs.take (n + 1), p.rst = true ∨ p.cmdValid = false) :
    s.pins.rst = true ∨ s.pins.cmdValid = false := by
  cases hi : s.inputs with
  | nil => simp [State.pins_of_no_inputs s hi, Pins.idle]
  | cons p ps => simpa [State.pins, hi] using h p (by simp [hi])

/-- An idle engine that accepts nothing in a run stays idle along it and hands over no response. -/
theorem steps_of_idle_of_none (n : Nat) (s : State) (hb : s.busy = false) (hv : s.respValid = false)
    (h : acceptedWords n s = []) :
    ∃ u, steps n s = .next u ∧ u.respValid = false ∧ u.busy = false ∧ takenResponses n s = [] := by
  induction n generalizing s with
  | zero => exact ⟨s, rfl, hv, hb, rfl⟩
  | succ n ih =>
    have hw : s.acceptedWord = none := by
      cases hw : s.acceptedWord with
      | none => rfl
      | some w =>
        obtain ⟨t, ht⟩ := accept_answers w s.afterEdge
        simp [acceptedWords_succ_of_step n s t ((step_of_accepted s w hw).trans ht), hw] at h
    obtain ⟨htaken, t, ht, hb', hv', -⟩ := step_of_idle_of_none s hb hv hw
    rw [acceptedWords_succ_of_step n s t ht, hw] at h
    rw [steps_succ_of_step n s t ht, takenResponses_succ_of_step n s t ht, htaken]
    exact ih t hb' hv' h

/-- An idle engine accepts nothing at edges that are all under reset or without an offer. -/
theorem acceptedWords_of_quiet (n : Nat) (s : State) (hb : s.busy = false) (hv : s.respValid = false)
    (h : ∀ p ∈ s.inputs.take n, p.rst = true ∨ p.cmdValid = false) : acceptedWords n s = [] := by
  induction n generalizing s with
  | zero => rfl
  | succ n ih =>
    have hw := acceptedWord_eq_none_of_quiet s (pins_quiet n s h)
    obtain ⟨-, t, ht, hb', hv', hi⟩ := step_of_idle_of_none s hb hv hw
    rw [acceptedWords_succ_of_step n s t ht, hw]
    refine ih t hb' hv' fun p hp => h p (List.mem_of_mem_tail ?_)
    rwa [List.tail_take_eq_take_tail, Nat.add_sub_cancel, ← hi]

/-- Settles O27: a reset edge clears the three flags, and the idle engine it leaves stays idle at quiet edges, so it is
ready at the first edge with an offer. -/
theorem resetEdgeClearsTheThreeFlagsOnly : Obligations.ResetEdgeClearsTheThreeFlagsOnly := by
  intro s hrst
  have hstep := step_of_reset s hrst
  have hw := acceptedWord_eq_none_of_quiet s (.inl hrst)
  refine ⟨hstep, by simp [State.cmdReady, hrst], hw, by simp [State.takenResponse, hrst], ?_, ?_⟩
  · intro t ht hrst'
    obtain rfl : s.afterEdge.resetFlags = t := Host.Outcome.next.inj (hstep.symm.trans ht)
    exact step_of_reset _ hrst'
  · intro n hq
    have hacc := acceptedWords_of_quiet n s.afterEdge.resetFlags rfl rfl hq
    obtain ⟨u, hu, hv, hb, -⟩ := steps_of_idle_of_none n _ rfl rfl hacc
    refine ⟨u, (steps_succ_of_step n s _ hstep).trans hu, ?_, steps_inputs n _ u hu, fun hr hc => ?_⟩
    · rw [acceptedWords_succ_of_step n s _ hstep, hw, hacc]
      rfl
    · exact (acceptedWord_eq_some u _).mpr ⟨hr, hb, hv, hc, rfl⟩

/-- Settles O28: the reset edge leaves the engine idle, and until a word is accepted it stays so. -/
theorem resetAbortsTheOperationForGood : Obligations.ResetAbortsTheOperationForGood := by
  intro s t n hrst ht hacc
  obtain rfl : s.afterEdge.resetFlags = t := Host.Outcome.next.inj ((step_of_reset s hrst).symm.trans ht)
  exact steps_of_idle_of_none n _ rfl rfl hacc

/-! ### The fastest issue (R240) -/

/-- The latency of R240's table: P_LAT for ENC and DEC with a key, 0 for KEYLOAD and errors. -/
theorem latency_eq_ite (ks : KeyState) (w : CmdWord) :
    latency ks w =
      if ks.keyValid = true ∧ ∃ d, decode w = .ok (.enc d) ∨ decode w = .ok (.dec d) then Config.pLat else 0 := by
  cases hd : decode w with
  | error e => simp [latency, hd]
  | ok i => cases i <;> simp [latency, hd]

/-- The edges one command takes: its acceptance, its latency and the handover of its response. -/
theorem issueOne_length (ks : KeyState) (w : CmdWord) : (issueOne ks w).length = latency ks w + 1 + 1 := by
  simp [issueOne]

/-- After the acceptance edge and the latency the host still holds the levels that take the response. -/
theorem issueOne_drop (ks : KeyState) (w : CmdWord) (ps : List Pins) :
    (issueOne ks w ++ ps).drop (latency ks w + 1) = takePins :: ps := by
  simp [issueOne, List.drop_append, List.drop_replicate]

/-- No edge of the fastest issue is a reset edge. -/
theorem issueAll_no_rst (ks : KeyState) (ws : List CmdWord) : ∀ p ∈ issueAll ks ws, p.rst = false := by
  induction ws generalizing ks with
  | nil => simp [issueAll]
  | cons w ws ih =>
    have hone : ∀ p ∈ issueOne ks w, p.rst = false := by simp [issueOne, takePins]
    exact fun p hp => (List.mem_append.mp hp).elim (hone p) (ih _ p)

/-- A host that issues a stream at the fastest rate asserts no reset. -/
theorem noReset_of_issueAll (ws : List CmdWord) (ks : KeyState) (s : State) (h : s.inputs = issueAll ks ws) :
    s.noReset = true := by
  simpa [State.noReset, h] using issueAll_no_rst ks ws

/-- On its way to a response an engine accepts nothing. -/
theorem acceptedWords_of_answersIn (n : Nat) (s : State) (c : Config) (ks : KeyState) (r : Response)
    (h : s.AnswersIn c ks r n) : acceptedWords n s = [] := by
  induction n generalizing s with
  | zero => rfl
  | succ n ih =>
    obtain ⟨t, ht, ha⟩ := step_answersIn s c ks r n h
    obtain ⟨hb, -⟩ := h.progress
    rw [acceptedWords_succ_of_step n s t ht, acceptedWord_eq_none s (.inl hb), ih t ha]
    rfl

/-- Up to its response, an accepted word is the only one. -/
theorem acceptedWords_of_accepted (s : State) (w : CmdWord) (hw : s.acceptedWord = some w) (hn : s.noReset = true) :
    acceptedWords (latency s.keyState w + 1) s = [w] := by
  obtain ⟨t, ht, ha⟩ := step_of_accepted_answersIn s w hw hn
  rw [acceptedWords_succ_of_step _ s t ht, hw, acceptedWords_of_answersIn _ t _ _ _ ha]
  rfl

/-- One command issued at the fastest rate: it alone is accepted, and at the end its response is taken and the engine
is idle with the transaction level's key state. -/
theorem run_of_issueOne (s : State) (w : CmdWord) (ps : List Pins) (hb : s.busy = false) (hv : s.respValid = false)
    (hn : s.noReset = true) (hi : s.inputs = issueOne s.keyState w ++ ps) :
    ∃ t, steps (issueOne s.keyState w).length s = .next t ∧ t.busy = false ∧ t.respValid = false ∧
      t.inputs = ps ∧ t.keyState = keyAfter s.keyState w ∧
      acceptedWords (issueOne s.keyState w).length s = [w] := by
  have hw : s.acceptedWord = some w :=
    (acceptedWord_eq_some s w).mpr ⟨noReset_pins s hn, hb, hv, by simp [State.pins, hi, issueOne],
      by simp [State.pins, hi, issueOne]⟩
  obtain ⟨u, hu, ha⟩ := steps_of_accepted_answersIn (latency s.keyState w) 0 s w hw hn rfl
  obtain ⟨hub, huv, -⟩ := ha.progress
  have hui : u.inputs = takePins :: ps := by rw [steps_inputs _ s u hu, hi, issueOne_drop]
  have hup : u.pins = takePins := by simp [State.pins, hui]
  have hs : step u = .next u.afterEdge.takeResponse :=
    step_of_taken u hub (by simp [hup, takePins]) huv (by simp [hup, takePins])
  obtain ⟨hsteps, hacc, -⟩ := run_append _ 1 s u hu
  rw [issueOne_length]
  refine ⟨_, hsteps.trans (steps_succ_of_step 0 u _ hs), hub, rfl, by simp [hui], ha.keyState, ?_⟩
  rw [hacc, acceptedWords_of_accepted s w hw hn, acceptedWords_succ_of_step 0 u _ hs,
    acceptedWord_eq_none u (.inr huv)]
  rfl

/-- A stream issued at the fastest rate: its words are accepted one after another, and the engine is idle at the end. -/
theorem run_of_issueAll (ws : List CmdWord) (s : State) (hb : s.busy = false) (hv : s.respValid = false)
    (hi : s.inputs = issueAll s.keyState ws) :
    acceptedWords s.inputs.length s = ws ∧
      ∃ t, steps s.inputs.length s = .next t ∧ t.busy = false ∧ t.respValid = false := by
  induction ws generalizing s with
  | nil =>
    rw [hi]
    exact ⟨rfl, s, rfl, hb, hv⟩
  | cons w ws ih =>
    obtain ⟨u, hu, hub, huv, hui, huk, hw⟩ := run_of_issueOne s w _ hb hv (noReset_of_issueAll _ _ s hi) hi
    obtain ⟨hws, hend⟩ := ih u hub huv (by rw [hui, huk])
    obtain ⟨hsteps, hacc, -⟩ := run_append _ u.inputs.length s u hu
    have hlen : s.inputs.length = (issueOne s.keyState w).length + u.inputs.length := by
      rw [hi, hui, issueAll, List.length_append]
    rw [hlen, hsteps, hacc, hw, hws]
    exact ⟨rfl, hend⟩

/-- An idle engine owes no response and has the transaction level's key state. -/
theorem State.Owes.of_idle {s : State} {c : Config} {ks : KeyState} {rs : List Response} (h : s.Owes c ks rs)
    (hb : s.busy = false) (hv : s.respValid = false) : rs = [] ∧ s.keyState = ks := by
  cases h with
  | idle hc hk hn _ _ => exact ⟨rfl, hk⟩
  | answersIn r n ha =>
    have hp := ha.progress
    cases n <;> simp [State.Progress, hb, hv] at hp

/-- Settles O44: the stream's words are accepted and the engine ends idle, so it owes nothing, and a run in balance
(R61) has then handed over every response. -/
theorem fastestIssueAnswersEveryCommand : Obligations.FastestIssueAnswersEveryCommand := by
  constructor
  · intro ws s hb hv hi
    obtain ⟨hacc, t, ht, htb, htv⟩ := run_of_issueAll ws s hb hv hi
    obtain ⟨t', ht', rs, howes, hbal⟩ := steps_balanced s.inputs.length s s.cfg s.keyState []
      (.idle rfl rfl (noReset_of_issueAll ws _ s hi) hb hv)
    obtain rfl : t = t' := Host.Outcome.next.inj (ht.symm.trans ht')
    obtain ⟨rfl, hk⟩ := howes.of_idle htb htv
    rw [hacc] at hk hbal
    exact ⟨hacc, by simpa using hbal, t, ht, htb, htv, hk⟩
  · intro ks w
    rw [issueOne_length, latency_eq_ite]
    split <;> rfl

/-! ### Liveness (R241) -/

/-- At most 24 rounds are still to run. -/
theorem roundsToCome_length_le (s : State) (hr : s.round.toNat < Config.rounds) : s.roundsToCome.length ≤ 24 := by
  simp only [Config.rounds] at hr
  cases hd : s.dir with
  | forward => simp [State.roundsToCome, hd, Config.rounds]
  | inverse =>
    simp only [State.roundsToCome, hd, List.length_reverse, List.length_range]
    omega

/-- A busy engine that meets the invariant is as many edges from its response as it has rounds to come. -/
theorem State.Inv.answersIn {s : State} (h : s.Inv) (hb : s.busy = true) (hn : s.noReset = true) :
    s.AnswersIn s.cfg s.keyState (.ok, s.resultOf s.finalHalves) s.roundsToCome.length where
  cfg := rfl
  keyState := rfl
  noReset := hn
  progress := by
    obtain ⟨n, hlen⟩ := Nat.exists_eq_add_one.mpr (roundsToCome_length_pos s (h.busy_round hb))
    rw [hlen]
    exact ⟨hb, h.busy_no_response hb, h.busy_round hb, hlen, rfl⟩

/-- When a response is taken, and which (R72). -/
theorem takenResponse_eq_some (s : State) (r : Response) :
    s.takenResponse = some r ↔
      s.pins.rst = false ∧ s.respValid = true ∧ s.pins.rspReady = true ∧ (s.respStatus, s.respData) = r := by
  simp [State.takenResponse, and_assoc]

/-- Settles O45: a busy engine responds after the rounds it has to come, at most 24, and a response is taken only from
an engine that is not busy. -/
theorem busyEndsWithinTwentyFourEdges : Obligations.BusyEndsWithinTwentyFourEdges := by
  constructor
  · intro s hs hb hn
    obtain ⟨t, ht, ha⟩ := steps_answersIn _ 0 s _ _ _ (hs.answersIn hb hn)
    obtain ⟨htb, htv, -⟩ := ha.progress
    exact ⟨_, roundsToCome_length_le s (hs.busy_round hb), t, ht, htb, htv⟩
  · intro s t r hs hr ht
    obtain ⟨hrst, hv, hp, -⟩ := (takenResponse_eq_some s r).mp hr
    have hb : s.busy = false := by
      cases hb : s.busy with
      | false => rfl
      | true => simp [hs.busy_no_response hb] at hv
    obtain rfl : s.afterEdge.takeResponse = t :=
      Host.Outcome.next.inj ((step_of_taken s hb hrst hv hp).symm.trans ht)
    exact ⟨hb, rfl⟩

end Sys2Proof.Machine
end

/-! PROOFS. The decoder and the encoder undo each other (spec/30_encoding.md sections 2 and 4). -/

section
namespace Sys2Proof

/-! ### The word of the command in each row of the opcode table (R73 to R77) -/

/-- A word is its OP and its PAYLOAD (R73). -/
theorem toNat_eq_op_payload (w : CmdWord) : w.toNat = 2 ^ 80 * (opField w).toNat + (payloadField w).toNat := by
  rw [opField_toNat, payloadField_toNat, Nat.div_add_mod]

/-- A word whose RSVD field is zero is its OP and its DATA (R76). -/
theorem toNat_eq_op_data (w : CmdWord) (hz : rsvdField w = 0) :
    w.toNat = 2 ^ 80 * (opField w).toNat + (dataField w).toNat := by
  have hrsvd : w.toNat / 2 ^ 32 % 2 ^ 48 = 0 := by rw [← rsvdField_toNat, hz]; rfl
  rw [opField_toNat, dataField_toNat]
  omega

theorem encode_keyload_payloadField (w : CmdWord) (h : opField w = 1) : encode (.keyload (payloadField w)) = w := by
  apply BitVec.eq_of_toNat_eq
  rw [encode_keyload_toNat, toNat_eq_op_payload w, h]
  rfl

theorem encode_enc_dataField (w : CmdWord) (h : opField w = 2) (hz : rsvdField w = 0) :
    encode (.enc (dataField w)) = w := by
  apply BitVec.eq_of_toNat_eq
  rw [encode_enc_toNat, toNat_eq_op_data w hz, h]
  rfl

theorem encode_dec_dataField (w : CmdWord) (h : opField w = 3) (hz : rsvdField w = 0) :
    encode (.dec (dataField w)) = w := by
  apply BitVec.eq_of_toNat_eq
  rw [encode_dec_toNat, toNat_eq_op_data w hz, h]
  rfl

/-- A legal word is the word of some command: of the one in its row of the opcode table. -/
theorem exists_encode_of_legalWord (w : CmdWord) (h : legalWord w = true) : ∃ i, encode i = w := by
  rcases (legalWord_iff_fields w).mp h with h1 | ⟨h2 | h3, hz⟩
  · exact ⟨_, encode_keyload_payloadField w h1⟩
  · exact ⟨_, encode_enc_dataField w h2 hz⟩
  · exact ⟨_, encode_dec_dataField w h3 hz⟩

end Sys2Proof

namespace Sys2Proof.Machine

/-! ### The two round trips -/

/-- Settles O2: the word of each command decodes to it, by the command. -/
theorem decodeOfEncodeGivesTheCommand : Obligations.DecodeOfEncodeGivesTheCommand
  | .keyload k => decode_encode_keyload k
  | .enc d => decode_encode_enc d
  | .dec d => decode_encode_dec d

/-- Settles O3: a word that decodes is legal, so it is the word of a command, and by the round trip O2 that command is
the one it decodes to. -/
theorem encodeOfDecodedWordGivesTheWord : Obligations.EncodeOfDecodedWordGivesTheWord := by
  intro w i hi
  obtain ⟨j, rfl⟩ := exists_encode_of_legalWord w ((legalWord_iff_decode w).mpr ⟨i, hi⟩)
  have hj : j = i := Except.ok.inj ((decodeOfEncodeGivesTheCommand j).symm.trans hi)
  rw [hj]

end Sys2Proof.Machine
end

/-! PROOFS. Words, halves and bytes as numbers (spec/20_memory.md R53 to R55). -/

section
namespace Sys2Proof.Machine

/-- The bits of a vector above its lowest `start` are the quotient by `2 ^ start`. -/
theorem extractLsb'_top_toNat {n : Nat} (x : BitVec n) (start len : Nat) (h : n = start + len) :
    (x.extractLsb' start len).toNat = x.toNat / 2 ^ start := by
  subst h
  rw [BitVec.extractLsb'_toNat, Nat.shiftRight_eq_div_pow]
  exact Nat.mod_eq_of_lt (Nat.div_lt_of_lt_mul (Nat.pow_add 2 start len ▸ x.isLt))

@[simp] theorem hi16_toNat (x : Word) : (hi16 x).toNat = x.toNat / 2 ^ 16 :=
  extractLsb'_top_toNat x 16 16 rfl

@[simp] theorem lo16_toNat (x : Word) : (lo16 x).toNat = x.toNat % 2 ^ 16 :=
  BitVec.extractLsb'_toNat 0 16 x

@[simp] theorem hb_toNat (w : Half) : (hb w).toNat = w.toNat / 2 ^ 8 :=
  extractLsb'_top_toNat w 8 8 rfl

@[simp] theorem lb_toNat (w : Half) : (lb w).toNat = w.toNat % 2 ^ 8 :=
  BitVec.extractLsb'_toNat 0 8 w

@[simp] theorem join_toNat (a b : Half) : (join a b).toNat = 2 ^ 16 * a.toNat + b.toNat := by
  rw [join, BitVec.toNat_append, ← Nat.shiftLeft_add_eq_or_of_lt b.isLt, Nat.shiftLeft_eq, Nat.mul_comm]

theorem wordBytes_toNat (x : Word) : (wordBytes x).map BitVec.toNat =
    [x.toNat / 2 ^ 24, x.toNat / 2 ^ 16 % 256, x.toNat / 2 ^ 8 % 256, x.toNat % 256] := by
  simp [wordBytes, extractLsb'_top_toNat x 24 8 rfl, BitVec.extractLsb'_toNat, Nat.shiftRight_eq_div_pow]

/-- Settles O7: each split is a quotient or a remainder by a power of two, and `join` is the sum. -/
theorem wordsAndHalvesSplitMostSignificantFirst : Obligations.WordsAndHalvesSplitMostSignificantFirst :=
  ⟨wordBytes_toNat, fun x => ⟨hi16_toNat x, lo16_toNat x⟩, join_toNat, fun w => ⟨hb_toNat w, lb_toNat w⟩⟩

end Sys2Proof.Machine
end
